-- ==== Sys2Proof/Word.lean ====
section
/-!
DEFINITION. The data the block computes on: 64-bit words and 128-bit values made of two words
(00_scope.md R6, 10_state.md R20).

The word primitives of 00_scope.md R8 are BitVec's own operations: `add64`, `sub64` are `+`, `-`;
`not64`, `and64`, `or64`, `xor64` are `~~~`, `&&&`, `|||`, `^^^`; `shl64`, `shr64` are `<<<`, `>>>` by a
number (no rule uses a count outside 0..63); `ltu64`, `lts64` are `BitVec.ult`, `BitVec.slt`.
-/

namespace Sys2Proof

/-- A 64-bit unsigned storage unit (R6, R11). -/
abbrev Word := BitVec 64

/-- A 128-bit value `{high, low}` (R6, R20). Signed and unsigned values are the same bits (R10), and
every pair of words is a valid, distinct value. -/
structure Value where
  high : Word
  low : Word
  deriving DecidableEq, Repr, Inhabited

end Sys2Proof
end

