-- ==== Sys2Proof/Config.lean ====
section
/-!
DEFINITION. What one instance of the block fixes, and the values the spec leaves free.
-/

namespace Sys2Proof

/-- The two readings of `DIVS(MIN, B)` for `B` not in `{MIN, ZERO}` (46_divide.md R180). -/
inductive DivsMinDividend where
  | truncating
  | literalZero
  deriving DecidableEq, Repr

/-- The configuration of an instance, fixed for a whole run (70_reset_and_hazards.md R230,
`launch.config`). It has the one parameter of the spec (93_implementation_defined.md P1). -/
structure Config where
  divsMinDividend : DivsMinDividend
  deriving DecidableEq, Repr

/-- The spec's default, `DIVS_MIN_DIVIDEND = truncating` (00_scope.md R5, 46_divide.md R180). -/
def Config.standard : Config := { divsMinDividend := .truncating }

/-- Free values for a 128-bit latch or working register that has become unspecified
(70_reset_and_hazards.md R220, 10_state.md R34, R36; 93_implementation_defined.md U5): the k-th one drawn in
a run. It has no body, so nothing proved depends on what it is. Log 2. -/
opaque Config.freeValue : Nat → Value

/-- Free values for the 16-bit command-word latch that has become unspecified (R220). Log 2. -/
opaque Config.freeCommandWord : Nat → BitVec 16

end Sys2Proof
end

