-- ==== Sys2Proof/Syntax.lean ====
section
/-!
DEFINITION. The 29 commands of the opcode map (30_encoding.md R51), and a host's command stream
(30_encoding.md R59, 70_reset_and_hazards.md R230).
-/

namespace Sys2Proof

/-- One constructor per row of spec/opcode_table.json, in its order. The operands A and B are not part of
an instruction: they travel on their own ports (10_state.md R24). The only immediate of any command is
the shift amount, the 7-bit field N of the command word (R52), so that a shift by 128 or more
cannot be written. -/
inductive Instr where
  | zext64
  | sext64
  | eq
  | ltu
  | gtu
  | leu
  | geu
  | lts
  | gts
  | les
  | ges
  | and
  | or
  | xor
  | not
  | shl (n : BitVec 7)
  | shrl (n : BitVec 7)
  | shra (n : BitVec 7)
  | add
  | sub
  | neg
  | mul64u
  | mul64s
  | mulu
  | muls
  | divu
  | remu
  | divs
  | rems
  deriving DecidableEq, Repr

/-! The aliases of R60: other spellings of one command, none of them a command of its own. -/

abbrev Instr.complement : Instr := .not
abbrev Instr.shls (n : BitVec 7) : Instr := .shl n
abbrev Instr.addu : Instr := .add
abbrev Instr.adds : Instr := .add
abbrev Instr.subu : Instr := .sub
abbrev Instr.subs : Instr := .sub
abbrev Instr.negu : Instr := .neg
abbrev Instr.negs : Instr := .neg

/-- An operand of a command stream: a value, or `$j`, the response to command `j` counted from 1
(R59). -/
inductive Operand where
  | literal (v : Value)
  | response (j : Nat)
  deriving DecidableEq, Repr

/-- One command of a stream: the triple (command word, operand A, operand B) (R12, R230). The word is
raw: a host can offer a reserved one. -/
structure Command where
  cw : BitVec 16
  a : Operand
  b : Operand
  deriving DecidableEq, Repr

end Sys2Proof
end

