-- ==== Sys2Proof/WellFormed.lean ====
section
/-!
DEFINITION. Which command words are legal and which command streams are well formed.

A term of `Instr` needs no check of its own: its one field is as wide as the encoding's. What can be ill
formed is a raw command word (30_encoding.md R55) and a reference to a response (30_encoding.md R59).
Legality is written from R55's list of families and functions; the decoder (R58) is written from R51's
opcode numbers, and a statement says that the two agree.
-/

namespace Sys2Proof

/-- The functions assigned in each family: R55's list of reserved ones, read the other way round. -/
def assignedFunction (fam fn : Nat) : Bool :=
  match fam with
  | 1 => fn < 2
  | 2 => fn ≤ 4 || (9 ≤ fn && fn ≤ 12)
  | 3 => fn < 4
  | 4 => fn < 3
  | 5 => fn < 3
  | 6 => fn < 4
  | 7 => fn < 4
  | _ => false

/-- R55: a word is legal when bit 15 is 0, its family and function are assigned, and its amount field is
0 unless it is a shift. -/
def legalWord (cw : BitVec 16) : Bool :=
  let w := cw.toNat
  let fam := w / 16 % 16
  w / 32768 == 0 && assignedFunction fam (w % 16) && (fam == 4 || w / 256 % 128 == 0)

/-- An operand of the k-th command may name only an earlier command's response: `$j` with
`1 ≤ j < k` (R59). -/
def Operand.wellFormedAt (k : Nat) : Operand → Bool
  | .literal _ => true
  | .response j => 1 ≤ j && j < k

/-- The operands of the k-th command name earlier responses only. Its word is not looked at: a host can offer a
reserved one, and is then refused. -/
def Command.wellFormedAt (k : Nat) (c : Command) : Bool :=
  c.a.wellFormedAt k && c.b.wellFormedAt k

/-- The host presents legal command words only: a duty of it (10_state.md R38), and no premise of a launch. -/
def streamLegal (cs : List Command) : Bool := cs.all fun c => legalWord c.cw

/-- A stream whose first command is command `k`: the premise `launch.program` (70_reset_and_hazards.md R230). -/
def streamWellFormedFrom : Nat → List Command → Bool
  | _, [] => true
  | k, c :: cs => c.wellFormedAt k && streamWellFormedFrom (k + 1) cs

end Sys2Proof
end

