-- ==== Sys2Proof/Decode.lean ====
section
/-!
DEFINITION. The format CW16 (30_encoding.md R50), the decoder (R58), total on all 65536 words and naming
why it rejects one, and the encoder.
-/

namespace Sys2Proof

/-- Why a command word is reserved (R55). All three are the spec's `invalid`. -/
inductive Reserved where
  /-- bit 15, the field `Z`, is 1 -/
  | zBitSet
  /-- `cw[7:0]` is none of the 29 opcode bytes -/
  | unassignedOpcode
  /-- the amount field `N` is not 0 and the command is no shift -/
  | amountOnNonShift
  deriving DecidableEq, Repr

/-! The fields of R50. -/

def fieldZ (cw : BitVec 16) : BitVec 1 := cw.extractLsb' 15 1
def fieldN (cw : BitVec 16) : BitVec 7 := cw.extractLsb' 8 7
def fieldFam (cw : BitVec 16) : BitVec 4 := cw.extractLsb' 4 4
def fieldOpc (cw : BitVec 16) : BitVec 8 := cw.extractLsb' 0 8

/-- The opcode byte of each command (R51). -/
def opcode : Instr → BitVec 8
  | .zext64 => 0x10
  | .sext64 => 0x11
  | .eq => 0x20
  | .ltu => 0x21
  | .gtu => 0x22
  | .leu => 0x23
  | .geu => 0x24
  | .lts => 0x29
  | .gts => 0x2A
  | .les => 0x2B
  | .ges => 0x2C
  | .and => 0x30
  | .or => 0x31
  | .xor => 0x32
  | .not => 0x33
  | .shl _ => 0x40
  | .shrl _ => 0x41
  | .shra _ => 0x42
  | .add => 0x50
  | .sub => 0x51
  | .neg => 0x52
  | .mul64u => 0x60
  | .mul64s => 0x61
  | .mulu => 0x62
  | .muls => 0x63
  | .divu => 0x70
  | .remu => 0x71
  | .divs => 0x72
  | .rems => 0x73

/-- The amount field of each command: the shift amount, and 0 for every other command (R50). -/
def amount : Instr → BitVec 7
  | .shl n => n
  | .shrl n => n
  | .shra n => n
  | _ => 0

/-- `Encode` (R58): `N * 256 + OPC`, with bit 15 clear. -/
def encode (i : Instr) : BitVec 16 :=
  0#1 ++ amount i ++ opcode i

/-- The command of an opcode byte (R51), given the amount field. -/
def instrOfOpcode (opc : BitVec 8) (n : BitVec 7) : Option Instr :=
  match opc.toNat with
  | 0x10 => some .zext64
  | 0x11 => some .sext64
  | 0x20 => some .eq
  | 0x21 => some .ltu
  | 0x22 => some .gtu
  | 0x23 => some .leu
  | 0x24 => some .geu
  | 0x29 => some .lts
  | 0x2A => some .gts
  | 0x2B => some .les
  | 0x2C => some .ges
  | 0x30 => some .and
  | 0x31 => some .or
  | 0x32 => some .xor
  | 0x33 => some .not
  | 0x40 => some (.shl n)
  | 0x41 => some (.shrl n)
  | 0x42 => some (.shra n)
  | 0x50 => some .add
  | 0x51 => some .sub
  | 0x52 => some .neg
  | 0x60 => some .mul64u
  | 0x61 => some .mul64s
  | 0x62 => some .mulu
  | 0x63 => some .muls
  | 0x70 => some .divu
  | 0x71 => some .remu
  | 0x72 => some .divs
  | 0x73 => some .rems
  | _ => none

/-- `Decode` (R58), with the reason where the spec says `invalid`. -/
def decode (cw : BitVec 16) : Except Reserved Instr :=
  if fieldZ cw ≠ 0 then .error .zBitSet
  else
    match instrOfOpcode (fieldOpc cw) (fieldN cw) with
    | none => .error .unassignedOpcode
    | some i => if fieldFam cw ≠ 4 ∧ fieldN cw ≠ 0 then .error .amountOnNonShift else .ok i

/-- The command word numbered as spec/opcode_table.json numbers its bits: bit 0 is the least significant
bit of the one 16-bit word; bits at or above `nbits` are 0. -/
def wordOfTable (nbits w : Nat) : BitVec 16 :=
  BitVec.ofNat 16 (w % 2 ^ nbits)

/-- The instruction the decoder reads from a word numbered as the table numbers it. No instruction has a
bit above bit 15 (R50, R57). -/
def decodeTableWord (nbits w : Nat) : Option Instr :=
  if w % 2 ^ nbits < 2 ^ 16 then (decode (wordOfTable nbits w)).toOption else none

/-- A line of the listing notation: the triple `(Encode(mnemonic, n), A, B)` (R59). -/
def Command.line (i : Instr) (a b : Operand) : Command :=
  { cw := encode i, a := a, b := b }

end Sys2Proof
end

