-- ==== Sys2Proof/Machine/State.lean ====
section
/-!
DEFINITION. The state of the block and of its host, as plain data; the ways a step can stop; the state
after reset.

Architecturally the block is stateless (10_state.md R22): no command reads anything an earlier one
left. What it holds between steps are the transaction latches of R23 and the hidden working registers
of the division engine (R31). The host is the environment (R38) and its behaviour is data too (log 8).
-/

namespace Sys2Proof.Machine

/-- Where the current transaction stands (R23). -/
inductive Phase where
  | idle
  | busy
  | resp
  deriving DecidableEq, Repr

/-- The four hidden working registers of the division engine (R31): the shifted divisor, the current-bit
tracker, the remaining dividend, the quotient being built. -/
structure DivRegs where
  den : Value
  cur : Value
  rem : Value
  quo : Value
  deriving DecidableEq, Repr

/-- What the host does in a step (R38): it drives the wires `rst` and `rsp_ready` (R24), and it may raise
`cmd_valid` with its next command while the command port is free. Log 8. -/
structure Wires where
  rst : Bool
  present : Bool
  rspReady : Bool
  deriving DecidableEq, Repr

/-- What stands on the ports `cmd_cw`, `cmd_a` and `cmd_b` while `cmd_valid` is 1 (R24). -/
structure Offer where
  cw : BitVec 16
  a : Value
  b : Value
  deriving DecidableEq, Repr

/-- The block and its host. -/
structure State where
  /-- the phase of the transaction (R23) -/
  phase : Phase
  /-- `cw_q`, the command word in flight (R23) -/
  cwQ : BitVec 16
  /-- `a_q`, operand A in flight (R23) -/
  aQ : Value
  /-- `b_q`, operand B in flight (R23) -/
  bQ : Value
  /-- `r_q`, the result (R23) -/
  rQ : Value
  /-- the division engine's working registers (R31) -/
  divRegs : DivRegs
  /-- the instance's parameter, fixed for a run and written by no step (R28, R180, R230). Log 7. -/
  config : Config
  /-- the command port (R24): none while `cmd_valid` is 0, the triple the host offers while it is 1. It is held
  until the transfer (R38). Log 8. -/
  cmdPort : Option Offer
  /-- what the host does in this step (R24, R38) -/
  wires : Wires
  /-- the host's commands not yet offered (R230). Log 8. -/
  stream : List Command
  /-- what the host does in the steps to come; where the list ends, it goes on as it is. Log 8. -/
  schedule : List Wires
  /-- one entry per accepted command that has finished, in order: the response the host received, or none
  for a command that a reset abandoned (R221, R227). Log 9. -/
  responses : List (Option Value)
  /-- the model's own: how many free values the run has drawn. Log 2. -/
  draws : Nat
  deriving DecidableEq, Repr

/-- What stops the machine. The block raises no exception of its own (60_exceptions.md R200). -/
inductive Fault where
  /-- EXECUTE of DIVU, REMU, DIVS or REMS with a zero divisor: the one precondition of the block
  (46_divide.md R170, 60_exceptions.md R201). Raised by the four division meanings. Safe: the block may
  hang or deliver any value, and the model gives the run no meaning. Log 5. -/
  | divisionByZero
  deriving DecidableEq, Repr

/-- What lies outside the model. -/
inductive Refusal where
  /-- An instruction without a meaning. Raised by no arm: every instruction has one. Safe. -/
  | notModelled (mnemonic : String)
  /-- A reserved command word (30_encoding.md R55, R56, 60_exceptions.md R202). Raised by ACCEPT before the
  operands are looked at, and by EXECUTE in a state no run reaches whose latched word is
  reserved. Safe: the block's behaviour is unspecified and the model gives the run no meaning. Log 6. -/
  | reservedEncoding (cw : BitVec 16)
  deriving DecidableEq, Repr

/-- What a data latch and a working register hold right after reset, where the spec gives no value
(R36): all ones, and not zero, which the spec warns against. Log 1. -/
def unwritten : Value := { high := 0xffffffffffffffff, low := 0xffffffffffffffff }

/-- The machine right after reset (R36): the phase is IDLE. The latches and working registers hold the
values log 1 names, the host drives nothing yet (log 15), and the parameter has the spec's default (log 7). -/
def State.reset : State :=
  { phase := .idle
    cwQ := 0xffff
    aQ := unwritten
    bQ := unwritten
    rQ := unwritten
    divRegs := { den := unwritten, cur := unwritten, rem := unwritten, quo := unwritten }
    config := Config.standard
    cmdPort := none
    wires := { rst := false, present := false, rspReady := false }
    stream := []
    schedule := []
    responses := []
    draws := 0 }

end Sys2Proof.Machine
end

