-- ==== Sys2Proof/Machine/Operands.lean ====
section
/-!
DEFINITION. Values as operands: the constants (10_state.md R21), the readings `U`, `S` and `V`
(00_scope.md R7), the halves of a word (R8), and the operands of a host's command stream (30_encoding.md
R59).
-/

namespace Sys2Proof

/-! The constants of R21: bit patterns the rules compare against. -/

def Value.zero : Value := { high := 0, low := 0 }
def Value.one : Value := { high := 0, low := 1 }
def Value.minusOne : Value := { high := 0xffffffffffffffff, low := 0xffffffffffffffff }
def Value.max : Value := { high := 0x7fffffffffffffff, low := 0xffffffffffffffff }
def Value.min : Value := { high := 0x8000000000000000, low := 0 }
def Value.umax : Value := { high := 0xffffffffffffffff, low := 0xffffffffffffffff }

/-- `isNeg(x) = x.high[63]`: the sign of a value is its bit 127 (R7, 41_compare.md R91). -/
def Value.isNeg (x : Value) : Bool := x.high.msb

/-- `U(x)`, the unsigned reading (R7). -/
def Value.U (x : Value) : Nat := x.high.toNat * 2 ^ 64 + x.low.toNat

/-- `S(x)`, the signed reading (R7). -/
def Value.S (x : Value) : Int := (x.U : Int) - 2 ^ 128 * (if x.isNeg then 1 else 0)

/-- `V(u)`, the value whose unsigned reading is `u mod 2^128` (R7). -/
def Value.V (u : Int) : Value :=
  let m := (u % 2 ^ 128).toNat
  { high := BitVec.ofNat 64 (m / 2 ^ 64), low := BitVec.ofNat 64 m }

/-- Bit `i` of a value, numbered 127 down to 0 (R6). -/
def Value.bit (x : Value) (i : Nat) : Bool :=
  if i < 64 then x.low.getLsbD i else x.high.getLsbD (i - 64)

namespace Machine

/-- `lo32` and `hi32` of a 64-bit quantity, as numbers (R8). -/
def lo32 (x : Nat) : Nat := x % 2 ^ 32

def hi32 (x : Nat) : Nat := x / 2 ^ 32

/-- The value the host drives for an operand of its stream: the host itself substitutes the response to an
earlier command, and has none to drive before that response has been delivered (R59). Log 9. -/
def resolveOperand (responses : List (Option Value)) : Operand → Option Value
  | .literal v => some v
  | .response 0 => none
  | .response (j + 1) => (responses[j]?).join

end Machine

end Sys2Proof
end

