-- ==== Sys2Proof/Machine/Flags.lean ====
section
/-!
DEFINITION. The block has no flags, condition codes or predicates (10_state.md R27). What other hardware keeps
in flags is here a value: the truth value a comparison returns (30_encoding.md R54), and the carry from the
low to the high word, which is internal to one operation and not visible.
-/

namespace Sys2Proof.Machine

/-- `bool(c)` (R9, R54). -/
def bool128 (c : Bool) : Value :=
  if c then { high := 0, low := 1 } else { high := 0, low := 0 }

/-- The carry out of a low-word sum: the sum wrapped below its first operand (44_additive.md R130). -/
def carryOfSum (sum first : Word) : Word :=
  if sum.ult first then 1 else 0

/-- The carry of the negator's add-1: the low word was zero (44_additive.md R131). -/
def carryOfNegate (low : Word) : Word :=
  if low = 0 then 1 else 0

end Sys2Proof.Machine
end

