-- ==== Sys2Proof/Machine/Ops.lean ====
section
/-!
DEFINITION. The operations on the state that the steps and the meanings share: what the ports show, the
transitions ACCEPT, the end of EXECUTE, DELIVER and RESET, and the host's part between two steps.

There is no memory to read or write (20_memory.md R40) and no exception to take or return from
(60_exceptions.md R200, R205, R206): no operation for either exists.
-/

namespace Sys2Proof.Machine

/-! Ports (10_state.md R24, R37). A command is transferred in a step where `cmd_valid` and `cmd_ready` are both 1. -/

/-- `cmd_valid`: the host offers a command. -/
def State.cmdValid (s : State) : Bool := s.cmdPort.isSome

/-- `cmd_ready`: the phase is IDLE; driven 0 while `rst` holds the block there (70_reset_and_hazards.md R220).
Log 14. -/
def State.cmdReady (s : State) : Bool := decide (s.phase = .idle) && !s.wires.rst

/-- `rsp_valid`: the phase is RESP, also in the step in which `rst` takes the block out of it (R221). -/
def State.rspValid (s : State) : Bool := decide (s.phase = .resp)

/-- `rsp_r`: the result while a response is offered, no value otherwise (R37). Log 4. -/
def State.rspR (s : State) : Option Value :=
  if s.rspValid then some s.rQ else none

/-- The instruction in flight: the decoded command-word latch. -/
def State.inFlight (s : State) : Except Reserved Instr := decode s.cwQ

/-- ACCEPT of a legal word: the word and both operands are sampled once, and the port is free again (R32).
Log 19. -/
def State.accept (s : State) (o : Offer) : State :=
  { s with phase := .busy, cwQ := o.cw, aQ := o.a, bQ := o.b, cmdPort := none }

/-- The step in phase IDLE: an offer is decoded and accepted, or refused where its word is reserved (R32,
60_exceptions.md R204); without one the block waits. Log 6. -/
def State.idleStep (s : State) : Host.Outcome State Fault Refusal :=
  match s.cmdPort with
  | none => .next s
  | some o =>
    match decode o.cw with
    | .error _ => .refused (.reservedEncoding o.cw)
    | .ok _ => .next (s.accept o)

/-- The end of EXECUTE: the result is latched and offered (R33). -/
def State.complete (s : State) (r : Value) : State :=
  { s with phase := .resp, rQ := r }

/-- The division engine's working registers are written (R31, 46_divide.md R171). -/
def State.setDivRegs (s : State) (g : DivRegs) : State :=
  { s with divRegs := g }

/-- EXECUTE of a division command: with a zero divisor there is no value and no later state (R33,
46_divide.md R170, 60_exceptions.md R201). Log 5. -/
def State.completeDivision (s : State) (g : DivRegs) (r : Value) : Host.Outcome State Fault Refusal :=
  if s.bQ = Value.zero then .fault .divisionByZero else .next ((s.setDivRegs g).complete r)

/-- DELIVER: the host receives the result; the latch is no longer valid (R34), so it takes a free value.
Log 3, log 19. -/
def State.deliver (s : State) : State :=
  { s with
    phase := .idle
    rQ := Config.freeValue s.draws
    responses := s.responses ++ [some s.rQ]
    draws := s.draws + 1 }

/-- The step in phase RESP: the response is delivered where the host takes it; else the block waits (R34,
R38). -/
def State.respStep (s : State) : State :=
  if s.wires.rspReady then s.deliver else s

/-- RESET: the phase is IDLE, every other latch and working register is unspecified and takes a free value
(70_reset_and_hazards.md R220); a command in flight ends without a response (R221). Log 2, log 9. -/
def State.resetUnit (s : State) : State :=
  { s with
    phase := .idle
    cwQ := Config.freeCommandWord s.draws
    aQ := Config.freeValue s.draws
    bQ := Config.freeValue (s.draws + 1)
    rQ := Config.freeValue (s.draws + 2)
    divRegs :=
      { den := Config.freeValue (s.draws + 3)
        cur := Config.freeValue (s.draws + 4)
        rem := Config.freeValue (s.draws + 5)
        quo := Config.freeValue (s.draws + 6) }
    responses := if s.phase = .idle then s.responses else s.responses ++ [none]
    draws := s.draws + 7 }

/-- The host goes on to the next entry of its schedule; where that has ended it goes on as it is. Log 8. -/
def State.setWires (s : State) : State :=
  match s.schedule with
  | [] => s
  | w :: ws => { s with wires := w, schedule := ws }

/-- The next command of the stream as the host drives it: none where none is left, or where an operand names a
response the host does not have (30_encoding.md R59). Log 9. -/
def State.nextOffer (s : State) : Option Offer :=
  match s.stream with
  | [] => none
  | c :: _ =>
    match resolveOperand s.responses c.a, resolveOperand s.responses c.b with
    | some a, some b => some { cw := c.cw, a := a, b := b }
    | _, _ => none

/-- The host raises `cmd_valid` with its next command, where it presents one and the port is free. An offer that
stands is neither changed nor withdrawn (R38; 93_implementation_defined.md U7). Log 8. -/
def State.present (s : State) : State :=
  match s.cmdPort with
  | some _ => s
  | none =>
    if s.wires.present then
      match s.nextOffer with
      | some o => { s with cmdPort := some o, stream := s.stream.tail }
      | none => s
    else s

/-- The host's part between two steps. Log 8. -/
def State.advance (s : State) : State := s.setWires.present

/-- What a step answers, with the host's part for the next step done. -/
def advanceNext : Host.Outcome State Fault Refusal → Host.Outcome State Fault Refusal
  | .next t => .next t.advance
  | .fault r => .fault r
  | .refused r => .refused r

/-- The state in which a command word is in flight and the next step executes it: what ACCEPT of that word
leaves, with the operand latches as they are, and `rst` not asserted. Log 13. -/
def State.withInFlight (s : State) (cw : BitVec 16) : State :=
  { s with phase := .busy, cwQ := cw, wires := { s.wires with rst := false } }

/-- A host starts a run: a command stream, and a new record of responses, so that `$j` counts from the run's
first command (70_reset_and_hazards.md R230, 30_encoding.md R59). Log 9. -/
def State.launch (s : State) (program : List Command) : State :=
  { s with stream := program, responses := [] }

end Sys2Proof.Machine
end

