-- ==== Sys2Proof/Machine/Additive.lean ====
section
/-!
DEFINITION. The adder, negator and subtractor: ADD, NEG, SUB (44_additive.md). Nothing is signalled (R134).
-/

namespace Sys2Proof.Machine

/-- R130: the carry of the low words goes into the high word; the carry out of bit 127 is dropped. -/
def add128 (a b : Value) : Value :=
  { high := (a.high + b.high) + carryOfSum (a.low + b.low) a.low
    low := a.low + b.low }

/-- R131. -/
def neg128 (a : Value) : Value :=
  { high := ~~~a.high + carryOfNegate a.low
    low := ~~~a.low + 1 }

/-- R132. -/
def sub128 (a b : Value) : Value := add128 a (neg128 b)

/-- ADD (R130). -/
def execAdd (s : State) : Host.Outcome State Fault Refusal := .next (s.complete (add128 s.aQ s.bQ))

/-- SUB (R132). -/
def execSub (s : State) : Host.Outcome State Fault Refusal := .next (s.complete (sub128 s.aQ s.bQ))

/-- NEG (R131). -/
def execNeg (s : State) : Host.Outcome State Fault Refusal := .next (s.complete (neg128 s.aQ))

end Sys2Proof.Machine
end

