-- ==== Sys2Proof/Machine/Bitwise.lean ====
section
/-!
DEFINITION. AND, OR, XOR, NOT (42_bitwise.md): each word by itself (R104).
-/

namespace Sys2Proof.Machine

/-- R100. -/
def and128 (a b : Value) : Value := { high := a.high &&& b.high, low := a.low &&& b.low }

/-- R101. -/
def or128 (a b : Value) : Value := { high := a.high ||| b.high, low := a.low ||| b.low }

/-- R102. -/
def xor128 (a b : Value) : Value := { high := a.high ^^^ b.high, low := a.low ^^^ b.low }

/-- R103. -/
def not128 (a : Value) : Value := { high := ~~~a.high, low := ~~~a.low }

/-- AND (R100). -/
def execAnd (s : State) : Host.Outcome State Fault Refusal := .next (s.complete (and128 s.aQ s.bQ))

/-- OR (R101). -/
def execOr (s : State) : Host.Outcome State Fault Refusal := .next (s.complete (or128 s.aQ s.bQ))

/-- XOR (R102). -/
def execXor (s : State) : Host.Outcome State Fault Refusal := .next (s.complete (xor128 s.aQ s.bQ))

/-- NOT (R103). -/
def execNot (s : State) : Host.Outcome State Fault Refusal := .next (s.complete (not128 s.aQ))

end Sys2Proof.Machine
end

