-- ==== Sys2Proof/Machine/Compare.lean ====
section
/-!
DEFINITION. The nine comparisons (41_compare.md). The signed ones are not the numeric order: on equal high
words they compare the low words as signed words, bit for bit as the reference does (R85, R89).
-/

namespace Sys2Proof.Machine

/-- R80. -/
def eq128 (a b : Value) : Bool := a.high == b.high && a.low == b.low

/-- R81. -/
def ltu128 (a b : Value) : Bool := a.high.ult b.high || (a.high == b.high && a.low.ult b.low)

/-- R82. -/
def gtu128 (a b : Value) : Bool := b.high.ult a.high || (a.high == b.high && b.low.ult a.low)

/-- R83: less or equal. -/
def leu128 (a b : Value) : Bool := ltu128 a b || eq128 a b

/-- R84: greater or equal. -/
def geu128 (a b : Value) : Bool := gtu128 a b || eq128 a b

/-- R85: the low words are compared as signed words too. -/
def lts128 (a b : Value) : Bool := a.high.slt b.high || (a.high == b.high && a.low.slt b.low)

/-- R86. -/
def gts128 (a b : Value) : Bool := b.high.slt a.high || (a.high == b.high && b.low.slt a.low)

/-- R87. -/
def les128 (a b : Value) : Bool := lts128 a b || eq128 a b

/-- R88. -/
def ges128 (a b : Value) : Bool := gts128 a b || eq128 a b

/-- A comparison returns its truth value as the response (30_encoding.md R54). -/
def State.completeBool (s : State) (c : Bool) : Host.Outcome State Fault Refusal :=
  .next (s.complete (bool128 c))

/-- EQ (R80). -/
def execEq (s : State) : Host.Outcome State Fault Refusal := s.completeBool (eq128 s.aQ s.bQ)

/-- LTU (R81). -/
def execLtu (s : State) : Host.Outcome State Fault Refusal := s.completeBool (ltu128 s.aQ s.bQ)

/-- GTU (R82). -/
def execGtu (s : State) : Host.Outcome State Fault Refusal := s.completeBool (gtu128 s.aQ s.bQ)

/-- LEU (R83). -/
def execLeu (s : State) : Host.Outcome State Fault Refusal := s.completeBool (leu128 s.aQ s.bQ)

/-- GEU (R84). -/
def execGeu (s : State) : Host.Outcome State Fault Refusal := s.completeBool (geu128 s.aQ s.bQ)

/-- LTS (R85). -/
def execLts (s : State) : Host.Outcome State Fault Refusal := s.completeBool (lts128 s.aQ s.bQ)

/-- GTS (R86). -/
def execGts (s : State) : Host.Outcome State Fault Refusal := s.completeBool (gts128 s.aQ s.bQ)

/-- LES (R87). -/
def execLes (s : State) : Host.Outcome State Fault Refusal := s.completeBool (les128 s.aQ s.bQ)

/-- GES (R88). -/
def execGes (s : State) : Host.Outcome State Fault Refusal := s.completeBool (ges128 s.aQ s.bQ)

end Sys2Proof.Machine
end

