-- ==== Sys2Proof/Machine/Convert.lean ====
section
/-!
DEFINITION. Construction of values from a 64-bit word: ZEXT64, SEXT64 (40_convert.md). Construction from two
words and reinterpretation need no command (R72, R73).
-/

namespace Sys2Proof.Machine

/-- R70. -/
def zext64 (a : Value) : Value := { high := 0, low := a.low }

/-- R71. -/
def sext64 (a : Value) : Value :=
  { high := if a.low.msb then 0xffffffffffffffff else 0, low := a.low }

/-- ZEXT64 (R70). -/
def execZext64 (s : State) : Host.Outcome State Fault Refusal := .next (s.complete (zext64 s.aQ))

/-- SEXT64 (R71). -/
def execSext64 (s : State) : Host.Outcome State Fault Refusal := .next (s.complete (sext64 s.aQ))

end Sys2Proof.Machine
end

