-- ==== Sys2Proof/Machine/Multiply.lean ====
section
/-!
DEFINITION. The multipliers: MUL64U, MUL64S, MULU, MULS (45_multiply.md).
-/

namespace Sys2Proof.Machine

/-- `mul64u(x, y)`: four partial products of 32-bit halves, summed exactly and narrowed at the end (R150). -/
def mul64u (x y : Word) : Value :=
  let p00 := lo32 x.toNat * lo32 y.toNat
  let p01 := lo32 x.toNat * hi32 y.toNat
  let p10 := hi32 x.toNat * lo32 y.toNat
  let p11 := hi32 x.toNat * hi32 y.toNat
  let mid := hi32 p00 + lo32 p01 + lo32 p10
  { high := BitVec.ofNat 64 (p11 + hi32 p01 + hi32 p10 + mid / 2 ^ 32)
    low := BitVec.ofNat 64 (lo32 mid * 2 ^ 32 + lo32 p00) }

/-- R151: the unsigned product, its high word corrected by the other operand for each negative operand. -/
def mul64s (x y : Word) : Value :=
  let u := mul64u x y
  let h := if x.msb then u.high - y else u.high
  { high := if y.msb then h - x else h, low := u.low }

/-- R152: the three partial products that reach the low 128 bits. -/
def mulu128 (a b : Value) : Value :=
  let p := mul64u a.low b.low
  { high := (p.high + (mul64u a.low b.high).low) + (mul64u a.high b.low).low
    low := p.low }

/-- `abs128(x)`, read as an unsigned value (46_divide.md R174; the magnitudes of R153 are the same). -/
def abs128 (x : Value) : Value := if x.isNeg then neg128 x else x

/-- R153. -/
def muls128 (a b : Value) : Value :=
  if b = Value.minusOne then neg128 a
  else if a = Value.minusOne then neg128 b
  else
    let r := mulu128 (abs128 a) (abs128 b)
    if a.isNeg ^^ b.isNeg then neg128 r else r

/-- MUL64U (R150). -/
def execMul64u (s : State) : Host.Outcome State Fault Refusal :=
  .next (s.complete (mul64u s.aQ.low s.bQ.low))

/-- MUL64S (R151). -/
def execMul64s (s : State) : Host.Outcome State Fault Refusal :=
  .next (s.complete (mul64s s.aQ.low s.bQ.low))

/-- MULU (R152). -/
def execMulu (s : State) : Host.Outcome State Fault Refusal := .next (s.complete (mulu128 s.aQ s.bQ))

/-- MULS (R153). -/
def execMuls (s : State) : Host.Outcome State Fault Refusal := .next (s.complete (muls128 s.aQ s.bQ))

end Sys2Proof.Machine
end

