-- ==== Sys2Proof/Machine/Shift.lean ====
section
/-!
DEFINITION. SHL, SHRL, SHRA (43_shift.md). The cases are those of R110: no word is ever shifted by 64 or more.
-/

namespace Sys2Proof.Machine

/-- A word of ones. -/
def allOnes64 : Word := 0xffffffffffffffff

/-- R111. -/
def shl128 (a : Value) (n : Nat) : Value :=
  if n = 0 then a
  else if 64 ≤ n then { high := a.low <<< (n - 64), low := 0 }
  else { high := (a.high <<< n) ||| (a.low >>> (64 - n)), low := a.low <<< n }

/-- R112. -/
def shrl128 (a : Value) (n : Nat) : Value :=
  if n = 0 then a
  else if 64 ≤ n then { high := 0, low := a.high >>> (n - 64) }
  else { high := a.high >>> n, low := (a.low >>> n) ||| (a.high <<< (64 - n)) }

/-- R113: `n = 64` is a case of its own. -/
def shra128 (a : Value) (n : Nat) : Value :=
  if a.isNeg = false then shrl128 a n
  else if n = 0 then a
  else if n ≤ 63 then
    { high := (a.high >>> n) ||| (allOnes64 <<< (64 - n))
      low := (a.low >>> n) ||| (a.high <<< (64 - n)) }
  else if n = 64 then { high := allOnes64, low := a.high }
  else { high := allOnes64, low := (a.high >>> (n - 64)) ||| (allOnes64 <<< (64 - (n - 64))) }

/-- SHL (R111). -/
def execShl (n : BitVec 7) (s : State) : Host.Outcome State Fault Refusal :=
  .next (s.complete (shl128 s.aQ n.toNat))

/-- SHRL (R112). -/
def execShrl (n : BitVec 7) (s : State) : Host.Outcome State Fault Refusal :=
  .next (s.complete (shrl128 s.aQ n.toNat))

/-- SHRA (R113). -/
def execShra (n : BitVec 7) (s : State) : Host.Outcome State Fault Refusal :=
  .next (s.complete (shra128 s.aQ n.toNat))

end Sys2Proof.Machine
end

