-- ==== Sys2Proof/Machine/Divide.lean ====
section
/-!
DEFINITION. The long-division engine and its commands: DIVU, REMU, DIVS, REMS (46_divide.md).

The engine is the shift-and-subtract procedure of R171, with its guard, over the working registers of
10_state.md R31. Its loops carry a count of passes that R179 bounds (log 18).
-/

namespace Sys2Proof.Machine

/-- One question of the alignment loop: the shifted divisor still fits, and its top bit is clear (R171, the
guard of D14). -/
def alignAgain (a den : Value) : Bool := leu128 den a && !den.isNeg

/-- The alignment loop: shift `den` and `cur` up, at most `k` times (R171). -/
def alignLoop (a : Value) : Nat → Value → Value → Value × Value
  | 0, den, cur => (den, cur)
  | k + 1, den, cur =>
    if alignAgain a den then alignLoop a k (shl128 den 1) (shl128 cur 1) else (den, cur)

/-- One pass of the subtract loop (R171). -/
def subtractPass (g : DivRegs) : DivRegs :=
  if geu128 g.rem g.den then
    { den := shrl128 g.den 1
      cur := shrl128 g.cur 1
      rem := sub128 g.rem g.den
      quo := or128 g.quo g.cur }
  else { g with den := shrl128 g.den 1, cur := shrl128 g.cur 1 }

/-- The subtract loop, until the current-bit tracker is zero, at most `k` times (R171). -/
def subtractLoop : Nat → DivRegs → DivRegs
  | 0, g => g
  | k + 1, g => if g.cur = Value.zero then g else subtractLoop k (subtractPass g)

/-- The step back by one shift, taken only when the shifted divisor exceeds the dividend; then the registers
at the head of the subtract loop (R171). -/
def afterAlignment (a b : Value) : DivRegs :=
  let (den, cur) := alignLoop a 127 b Value.one
  if gtu128 den a then { den := shrl128 den 1, cur := shrl128 cur 1, rem := a, quo := Value.zero }
  else { den := den, cur := cur, rem := a, quo := Value.zero }

/-- The working registers after both loops (R171, R179). -/
def divEngine (a b : Value) : DivRegs := subtractLoop 128 (afterAlignment a b)

/-- `DivModU(a, b)`, quotient and remainder, with its two early exits (R171). -/
def divModU (a b : Value) : Value × Value :=
  if gtu128 b a then (Value.zero, a)
  else if eq128 b a then (Value.one, Value.zero)
  else ((divEngine a b).quo, (divEngine a b).rem)

/-- What `DivModU(a, b)` leaves in the working registers: an early exit writes none of them. Log 10. -/
def divRegsAfter (g : DivRegs) (a b : Value) : DivRegs :=
  if gtu128 b a then g else if eq128 b a then g else divEngine a b

/-- The first three branches of R175, which do not use the engine. -/
def divsShortcut (c : Config) (a b : Value) : Option Value :=
  if a = Value.min ∧ b = Value.min then some Value.one
  else if b = Value.min then some Value.zero
  else if a = Value.min ∧ c.divsMinDividend = .literalZero then some Value.zero
  else none

/-- R175: the quotient truncated toward zero. -/
def divs128 (c : Config) (a b : Value) : Value :=
  match divsShortcut c a b with
  | some r => r
  | none =>
    let q := (divModU (abs128 a) (abs128 b)).1
    if a.isNeg ^^ b.isNeg then neg128 q else q

/-- The first two branches of R176, which do not use the engine. -/
def remsShortcut (a b : Value) : Option Value :=
  if a = Value.min ∧ b = Value.min then some Value.zero
  else if b = Value.min then some a
  else none

/-- R176: the remainder with the sign of the dividend. -/
def rems128 (a b : Value) : Value :=
  match remsShortcut a b with
  | some r => r
  | none =>
    let r := (divModU (abs128 a) (abs128 b)).2
    if a.isNeg then neg128 r else r

/-- The working registers after a signed command: a shortcut branch writes none of them. Log 10. -/
def signedRegsAfter (shortcut : Option Value) (g : DivRegs) (a b : Value) : DivRegs :=
  match shortcut with
  | some _ => g
  | none => divRegsAfter g (abs128 a) (abs128 b)

/-- DIVU (R172). -/
def execDivu (s : State) : Host.Outcome State Fault Refusal :=
  s.completeDivision (divRegsAfter s.divRegs s.aQ s.bQ) (divModU s.aQ s.bQ).1

/-- REMU (R173). -/
def execRemu (s : State) : Host.Outcome State Fault Refusal :=
  s.completeDivision (divRegsAfter s.divRegs s.aQ s.bQ) (divModU s.aQ s.bQ).2

/-- DIVS (R175). -/
def execDivs (s : State) : Host.Outcome State Fault Refusal :=
  s.completeDivision (signedRegsAfter (divsShortcut s.config s.aQ s.bQ) s.divRegs s.aQ s.bQ)
    (divs128 s.config s.aQ s.bQ)

/-- REMS (R176). -/
def execRems (s : State) : Host.Outcome State Fault Refusal :=
  s.completeDivision (signedRegsAfter (remsShortcut s.aQ s.bQ) s.divRegs s.aQ s.bQ)
    (rems128 s.aQ s.bQ)

end Sys2Proof.Machine
end

