-- ==== Sys2Proof/Machine/Dispatch.lean ====
section
/-!
DEFINITION. EXECUTE of a decoded instruction on the latched operands: one arm per command, each a direct call of
its meaning. The step calls it in phase BUSY only (10_state.md R33, log 17).
-/

namespace Sys2Proof.Machine

def exec (i : Instr) (s : State) : Host.Outcome State Fault Refusal :=
  match i with
  | .zext64 => Sys2Proof.Machine.execZext64 s
  | .sext64 => Sys2Proof.Machine.execSext64 s
  | .eq => Sys2Proof.Machine.execEq s
  | .ltu => Sys2Proof.Machine.execLtu s
  | .gtu => Sys2Proof.Machine.execGtu s
  | .leu => Sys2Proof.Machine.execLeu s
  | .geu => Sys2Proof.Machine.execGeu s
  | .lts => Sys2Proof.Machine.execLts s
  | .gts => Sys2Proof.Machine.execGts s
  | .les => Sys2Proof.Machine.execLes s
  | .ges => Sys2Proof.Machine.execGes s
  | .and => Sys2Proof.Machine.execAnd s
  | .or => Sys2Proof.Machine.execOr s
  | .xor => Sys2Proof.Machine.execXor s
  | .not => Sys2Proof.Machine.execNot s
  | .shl n => Sys2Proof.Machine.execShl n s
  | .shrl n => Sys2Proof.Machine.execShrl n s
  | .shra n => Sys2Proof.Machine.execShra n s
  | .add => Sys2Proof.Machine.execAdd s
  | .sub => Sys2Proof.Machine.execSub s
  | .neg => Sys2Proof.Machine.execNeg s
  | .mul64u => Sys2Proof.Machine.execMul64u s
  | .mul64s => Sys2Proof.Machine.execMul64s s
  | .mulu => Sys2Proof.Machine.execMulu s
  | .muls => Sys2Proof.Machine.execMuls s
  | .divu => Sys2Proof.Machine.execDivu s
  | .remu => Sys2Proof.Machine.execRemu s
  | .divs => Sys2Proof.Machine.execDivs s
  | .rems => Sys2Proof.Machine.execRems s

end Sys2Proof.Machine
end

