-- ==== Sys2Proof/Machine/Step.lean ====
section
/-!
DEFINITION. One step of the block (10_state.md section 4): RESET where `rst` is 1, else ACCEPT, EXECUTE or
DELIVER by the phase; where the host does not do its part, the block waits. Then the host does its part for
the next step.
-/

namespace Sys2Proof.Machine

/-- The step in phase BUSY: EXECUTE of the instruction in flight (R33). -/
def busyStep (s : State) : Host.Outcome State Fault Refusal :=
  match s.inFlight with
  | .error _ => .refused (.reservedEncoding s.cwQ)
  | .ok i => exec i s

/-- The step function. A step is a transaction step, not a clock cycle (D1, log 11). -/
def step (s : State) : Host.Outcome State Fault Refusal :=
  if s.wires.rst then advanceNext (.next s.resetUnit)
  else
    match s.phase with
    | .idle => advanceNext s.idleStep
    | .busy => advanceNext (busyStep s)
    | .resp => advanceNext (.next s.respStep)

/-- The state in which the next step executes the command word that the table numbers `w` (log 13). -/
def State.withFetchWord (s : State) (nbits w : Nat) : State :=
  s.withInFlight (wordOfTable nbits w)

end Sys2Proof.Machine
end

