-- ==== Sys2Proof/Safety.lean ====
section
/-!
DEFINITION. What claims call a launch, the end of a run, a kept precondition, and the invariant of a run
(70_reset_and_hazards.md R227, R230).
-/

namespace Sys2Proof.Machine

/-- The four commands with a precondition (46_divide.md R170). -/
def isDivision : Instr → Bool
  | .divu => true
  | .remu => true
  | .divs => true
  | .rems => true
  | _ => false

/-- The one precondition of the block: a division command has a non-zero divisor (46_divide.md R170). -/
def Precondition (i : Instr) (s : State) : Prop :=
  isDivision i = true → s.bQ ≠ Value.zero

/-- One command is in flight outside phase IDLE, none in it (10_state.md R23). -/
def State.inFlightCount (s : State) : Nat :=
  if s.phase = .idle then 0 else 1

/-- How many commands the host has handed over so far: each has a finished entry or is in flight. -/
def State.acceptedCount (s : State) : Nat :=
  s.responses.length + s.inFlightCount

/-- How many commands the host has still to hand over: the one it offers, and those of its stream. -/
def State.waitingCount (s : State) : Nat :=
  s.cmdPort.toList.length + s.stream.length

/-- The number of the stream's first command, counted from 1 over the commands of the host's record. -/
def State.streamPosition (s : State) : Nat :=
  s.acceptedCount + s.cmdPort.toList.length + 1

/-- What every step of a run keeps, where the host presents legal words (10_state.md R38): the words in flight, on
the port and to come are legal (30_encoding.md R55), and the operands to come name earlier responses only
(30_encoding.md R59). -/
def RunInv (s : State) : Prop :=
  (s.phase = .busy → legalWord s.cwQ = true) ∧
    (∀ o, s.cmdPort = some o → legalWord o.cw = true) ∧
    streamLegal s.stream = true ∧
    streamWellFormedFrom s.streamPosition s.stream = true

/-- The launch premises (R230) of a run that starts from the outcome `o` of the steps before it, in the state `s`,
on an instance whose parameter is `c`. `idle` holds after reset and after any DELIVER. -/
structure Launch (o : Host.Outcome State Fault Refusal) (s : State) (c : DivsMinDividend) : Prop where
  idle : s.phase = .idle
  noFault : o = .next s
  config : ∀ k t, Host.Core.run core k s = .next t → t.config.divsMinDividend = c
  program : streamWellFormedFrom s.streamPosition s.stream = true

/-- `k` steps lead from `s` to `t`, and `rst` is 0 in each of them. -/
def RunsTo (k : Nat) (s t : State) : Prop :=
  Host.Core.run core k s = .next t ∧
    ∀ j < k, ∀ u, Host.Core.run core j s = .next u → u.wires.rst = false

/-- The end of a run, with its observable outcome (R227): a run from `s`, without a reset on the way, has come to
`t`; the host has presented every command and taken the response to each, in order; the phase is IDLE. -/
def RunEnded (s t : State) (outcome : List Value) : Prop :=
  (∃ k, RunsTo k s t) ∧
    t.cmdPort = none ∧ t.stream = [] ∧ t.phase = .idle ∧
    outcome.length = s.waitingCount ∧ t.responses = s.responses ++ outcome.map some

end Sys2Proof.Machine
end

