-- ==== Sys2Proof/Certificates/Slice0/Obligations.lean ====
section
/-!
DEFINITION. The statements for the provers, each about the machine and none about a program. They come from the
numbered rules of spec/, file by file; a docstring names the rule or says what is the model's own.

Results are stated as equations `exec i s = next …` over every state: they say the result, that the instruction
completes, and (by the record update) that nothing else of the state changes.
-/

open Sys2Proof Sys2Proof.Machine

/-! ## Encoding (30_encoding.md) -/

/-- Words written out from the opcode map and R58's examples, and reserved words with the reason of each. -/
def Obligations.KnownWordsDecode : Prop :=
  decode 0x0010#16 = .ok .zext64 ∧
  decode 0x0029#16 = .ok .lts ∧
  decode 0x0033#16 = .ok .not ∧
  decode 0x4040#16 = .ok (.shl 64) ∧
  decode 0x7F41#16 = .ok (.shrl 127) ∧
  decode 0x0142#16 = .ok (.shra 1) ∧
  decode 0x0050#16 = .ok .add ∧
  decode 0x0063#16 = .ok .muls ∧
  decode 0x0072#16 = .ok .divs ∧
  decode 0x0000#16 = .error .unassignedOpcode ∧
  decode 0x0028#16 = .error .unassignedOpcode ∧
  decode 0x0150#16 = .error .amountOnNonShift ∧
  decode 0x8050#16 = .error .zBitSet

/-- The encoder loses nothing: decoding the word of any instruction, with any shift amount, gives it back. -/
def Obligations.DecodeInvertsEncode : Prop :=
  ∀ i : Instr, decode (encode i) = .ok i

/-- The other direction: a word that decodes is the word of what it decodes to, so every word has one meaning
and every instruction one word. -/
def Obligations.EncodeInvertsDecode : Prop :=
  ∀ (cw : BitVec 16) (i : Instr), decode cw = .ok i → encode i = cw

/-- R55: the words that decode are the legal ones, spelled out by bit 15, the 29 opcode bytes and the amount
field; the family form used by `legalWord` says the same; there are 410. -/
def Obligations.LegalWordsAreExactlyTheDecodable : Prop :=
  (∀ cw : BitVec 16,
    ((∃ i, decode cw = .ok i) ↔
      (cw.getLsbD 15 = false ∧
        (cw.toNat % 256 ∈
          [0x10, 0x11, 0x20, 0x21, 0x22, 0x23, 0x24, 0x29, 0x2A, 0x2B, 0x2C, 0x30, 0x31, 0x32, 0x33,
            0x40, 0x41, 0x42, 0x50, 0x51, 0x52, 0x60, 0x61, 0x62, 0x63, 0x70, 0x71, 0x72, 0x73]) ∧
        (cw.toNat / 16 % 16 = 4 ∨ cw.toNat / 256 % 128 = 0))) ∧
    ((∃ i, decode cw = .ok i) ↔ legalWord cw = true)) ∧
  (Finset.univ.filter fun cw : BitVec 16 => legalWord cw = true).card = 410

/-! ## Steps (10_state.md section 4, 70_reset_and_hazards.md) -/

/-- After reset the block is ready and offers nothing (R36); the latches' values are the model's (log 1) and
nothing is said of them. -/
def Obligations.ResetIsReady : Prop :=
  State.reset.phase = .idle ∧ State.reset.cmdReady = true ∧ State.reset.rspValid = false

/-- The handshake outputs are functions of the phase (R24, R37): a response is offered exactly in RESP, in the step
of a reset too (R221), and there `rsp_r` is the result latch; a command can be taken exactly in IDLE while
`rst` is 0. That `rst` masks `cmd_ready` alone is read from R220 (log 14); `rsp_r` has no value outside RESP
(log 4). -/
def Obligations.OutputsFollowPhase : Prop :=
  ∀ s : State,
    (s.cmdReady = true ↔ s.phase = .idle ∧ s.wires.rst = false) ∧
    (s.rspValid = true ↔ s.phase = .resp) ∧
    (s.phase = .resp → s.rspR = some s.rQ) ∧
    (s.phase ≠ .resp → s.rspR = none)

/-- ACCEPT (R32): enabled in IDLE when the host offers a command; a reserved word is refused; a legal one and
its operands are sampled and the phase becomes BUSY. Without an offer nothing is accepted. -/
def Obligations.AcceptSamplesOfferedCommand : Prop :=
  ∀ s : State, s.wires.rst = false → s.phase = .idle →
    (∀ cw a b, s.cmdPort = some ⟨cw, a, b⟩ →
      ((∀ i, decode cw ≠ .ok i) → step s = .refused (.reservedEncoding cw)) ∧
      (∀ i, decode cw = .ok i →
        ∃ t, step s = .next t ∧ t.phase = .busy ∧ t.cwQ = cw ∧ t.aQ = a ∧ t.bQ = b)) ∧
    (s.cmdPort = none → ∃ t, step s = .next t ∧ t.phase = .idle)

/-- A step runs the decoded instruction: in BUSY it is `exec` of the instruction in flight, and then the host does
its part for the next step (`advance`, the model's account of the host, log 8). -/
def Obligations.StepRunsInstructionInFlight : Prop :=
  ∀ (s : State) (i : Instr), s.wires.rst = false → s.phase = .busy → decode s.cwQ = .ok i →
    (∀ t, exec i s = .next t → step s = .next t.advance) ∧
    (∀ f, exec i s = .fault f → step s = .fault f) ∧
    (∀ r, exec i s = .refused r → step s = .refused r)

/-- DELIVER (R34): the host receives `r_q`, next in order after the responses before it; the phase becomes IDLE
and no response is offered any more. -/
def Obligations.DeliverHandsOverResult : Prop :=
  ∀ s : State, s.wires.rst = false → s.phase = .resp → s.wires.rspReady = true →
    ∃ t, step s = .next t ∧ t.phase = .idle ∧ t.responses = s.responses ++ [some s.rQ] ∧
      t.rspR = none

/-- Where the host does not do its part the block keeps still: no offer in IDLE, a response not taken in RESP (R38,
V-SEQ-9). What the host does for the next step is the model's account of it (`advance`, log 8). -/
def Obligations.BlockWaitsForHost : Prop :=
  ∀ s : State, s.wires.rst = false →
    (s.phase = .idle → s.cmdPort = none → step s = .next s.advance) ∧
    (s.phase = .resp → s.wires.rspReady = false → step s = .next s.advance)

/-- RESET (R220, R221): in every phase and whatever is offered, the phase becomes IDLE; no command is accepted; no
response is delivered, not even one offered and taken in that step; the command in flight ends without one,
which the host's record shows as a none entry (the model's choice, log 9). That an offer on the port is still
there after the step is the model's choice too, taken from R38's duty to hold it until the transfer (log 8).
In the step of the reset `cmd_ready` is 0; while `rst` stays 1 both handshake outputs are 0; with `rst` at 0 the
block is ready. That `cmd_ready` is masked and `rsp_valid` not is read from R220 and R221 (log 14). What the
latches hold is not said. -/
def Obligations.ResetAbandonsCommandInFlight : Prop :=
  ∀ s : State, s.wires.rst = true →
    s.cmdReady = false ∧
    ∃ t, step s = .next t ∧ t.phase = .idle ∧ t.waitingCount = s.waitingCount ∧
      (∀ o, s.cmdPort = some o → t.cmdPort = some o) ∧
      t.responses = s.responses ++ List.replicate s.inFlightCount none ∧
      t.rspValid = false ∧ (t.wires.rst = true → t.cmdReady = false) ∧
      (t.wires.rst = false → t.cmdReady = true)

/-- R204: reset before everything; a reserved word is refused whatever its operands, a zero divisor with it; the
precondition is examined only for a legal division command, at EXECUTE. -/
def Obligations.ResetThenRefusalThenFault : Prop :=
  (∀ s : State, s.wires.rst = true → ∃ t, step s = .next t ∧ t.phase = .idle) ∧
  (∀ (s : State) (cw : BitVec 16) (a b : Value), s.wires.rst = false → s.phase = .idle →
    s.cmdPort = some ⟨cw, a, b⟩ → legalWord cw = false → step s = .refused (.reservedEncoding cw)) ∧
  (∀ (s : State) (cw : BitVec 16) (a b : Value), s.wires.rst = false → s.phase = .idle →
    s.cmdPort = some ⟨cw, a, b⟩ → legalWord cw = true →
      ∃ t, step s = .next t ∧ t.phase = .busy) ∧
  (∀ (s : State) (i : Instr), s.wires.rst = false → s.phase = .busy → decode s.cwQ = .ok i →
    isDivision i = true → s.bQ = Value.zero → step s = .fault .divisionByZero)

/-- R170: the four division commands need a divisor that is not zero in all 128 bits; with a zero one they have no
value, `0 / 0` included; a divisor with a zero low word only is legal. -/
def Obligations.DivisionNeedsNonzeroDivisor : Prop :=
  ∀ i : Instr, isDivision i = true → ∀ s : State,
    (s.bQ.high = 0 ∧ s.bQ.low = 0 → exec i s = .fault .divisionByZero) ∧
    (¬(s.bQ.high = 0 ∧ s.bQ.low = 0) → ∃ t, exec i s = .next t ∧ t.phase = .resp)

/-- No instruction is refused, and the only fault is a division's zero divisor: whatever the operands, every other
command completes. -/
def Obligations.OnlyDivisionByZeroStops : Prop :=
  ∀ (i : Instr) (s : State),
    ((∃ t, exec i s = .next t) ↔ Precondition i s) ∧
    ((∃ f, exec i s = .fault f) ↔ ¬Precondition i s) ∧
    (∀ r, exec i s ≠ .refused r)

/-- The frame of every instruction, read from R33's two assignments, to `r_q` and to the phase (log 19): where it
answers a next state, a result is latched and offered, and everything else is unchanged: the other latches, the
parameter, the command port, the host's wires, stream, schedule and past responses; the division engine's
working registers too, unless it is a division (R31). -/
def Obligations.ExecChangesOnlyResultAndPhase : Prop :=
  ∀ (i : Instr) (s t : State), exec i s = .next t →
    t.phase = .resp ∧ t.cwQ = s.cwQ ∧ t.aQ = s.aQ ∧ t.bQ = s.bQ ∧ t.config = s.config ∧
    t.cmdPort = s.cmdPort ∧ t.wires = s.wires ∧ t.stream = s.stream ∧ t.schedule = s.schedule ∧
    t.responses = s.responses ∧ t.draws = s.draws ∧
    (isDivision i = false → t.divRegs = s.divRegs)

/-- R35: the response is a function of the command alone: not of the phase, the working registers, what the result
latch held, the host, or what went before. -/
def Obligations.ResponseDependsOnCommandAlone : Prop :=
  ∀ (i : Instr) (s t s' : State), s.aQ = t.aQ → s.bQ = t.bQ → s.config = t.config →
    exec i s = .next s' → ∃ t', exec i t = .next t' ∧ t'.rQ = s'.rQ

/-- R53's column of ignored operand parts: `B` for the one-operand commands and the shifts, `A.high` for the
extensions, both high words for the 64-bit multiplications. -/
def Obligations.UnreadOperandPartsIgnored : Prop :=
  ∀ (s : State) (v : Value) (w : Word),
    (∀ i : Instr, (i ∈ [.zext64, .sext64, .not, .neg] ∨ ∃ n, i ∈ [.shl n, .shrl n, .shra n]) →
      ∃ t u, exec i s = .next t ∧ exec i { s with bQ := v } = .next u ∧ u.rQ = t.rQ) ∧
    (∀ i : Instr, i ∈ [.zext64, .sext64, .mul64u, .mul64s] →
      ∃ t u, exec i s = .next t ∧
        exec i { s with aQ := { s.aQ with high := w } } = .next u ∧ u.rQ = t.rQ) ∧
    (∀ i : Instr, i ∈ [.mul64u, .mul64s] →
      ∃ t u, exec i s = .next t ∧
        exec i { s with bQ := { s.bQ with high := w } } = .next u ∧ u.rQ = t.rQ)

/-- The invariant of a run at reset. -/
def Obligations.RunInvariantHoldsAtReset : Prop :=
  RunInv State.reset

/-- Every step keeps the invariant of a run, from any state that meets it: the words in flight, on the command port
and to come are legal (R55, R38), and the operands to come name earlier responses (R59, R230). -/
def Obligations.StepKeepsRunInvariant : Prop :=
  ∀ s t : State, RunInv s → step s = .next t → RunInv t

/-- A well-formed program is never refused: under the invariant, no step refuses (R38: the host presents only legal
command words). -/
def Obligations.WellFormedProgramNeverRefused : Prop :=
  ∀ (s : State), RunInv s → ∀ r, step s ≠ .refused r

/-- `launch.config` (R230, R28): no step writes the parameter. -/
def Obligations.ParameterFixedForRun : Prop :=
  ∀ s t : State, step s = .next t → t.config = s.config

/-- Commands are conserved (R45 (b), (c)): those finished, in flight, offered and still to come are always as many;
an offer stands unchanged until the step that transfers it (R38), through a reset too by the model's choice
(log 8); the responses received so far stay as they are and in their places; and a response that is not
delivered is one that reset abandoned, which a none entry shows (the model's choice, log 9). -/
def Obligations.CommandsNeitherLostNorDuplicated : Prop :=
  ∀ s t : State, step s = .next t →
    t.acceptedCount + t.waitingCount = s.acceptedCount + s.waitingCount ∧
    (∀ o, s.cmdPort = some o → t.cmdPort = some o ∨
      (s.wires.rst = false ∧ s.phase = .idle ∧ t.phase = .busy ∧
        t.cwQ = o.cw ∧ t.aQ = o.a ∧ t.bQ = o.b)) ∧
    (t.responses = s.responses ∨
      (s.wires.rst = false ∧ s.phase = .resp ∧ t.responses = s.responses ++ [some s.rQ]) ∨
      (s.wires.rst = true ∧ s.phase ≠ .idle ∧ t.responses = s.responses ++ [none]))

/-- One transaction (R32, R33, R34, R226): a legal command offered in IDLE, its precondition kept, to a host that
takes responses, is answered after three steps by the result of its instruction, and the block is idle again with
one command less to come. -/
def Obligations.TransactionCompletesInThreeSteps : Prop :=
  ∀ (s : State) (cw : BitVec 16) (a b : Value) (i : Instr),
    s.phase = .idle → s.wires.rst = false → s.wires.rspReady = true → s.schedule = [] →
    s.cmdPort = some ⟨cw, a, b⟩ → decode cw = .ok i → (isDivision i = true → b ≠ Value.zero) →
    ∃ t u, Host.Core.run core 3 s = .next t ∧ exec i { s with aQ := a, bQ := b } = .next u ∧
      t.phase = .idle ∧ t.waitingCount + 1 = s.waitingCount ∧
      t.responses = s.responses ++ [some u.rQ]

/-! ## Construction (40_convert.md) -/

/-- R70. -/
def Obligations.Zext64ZeroExtendsLowWord : Prop :=
  encode .zext64 = 0x0010#16 ∧
  ∀ s : State, ∃ r : Value, exec .zext64 s = .next { s with phase := .resp, rQ := r } ∧
    r.low = s.aQ.low ∧ r.high = 0 ∧ r.U = s.aQ.low.toNat ∧ r.isNeg = false

/-- R71. -/
def Obligations.Sext64SignExtendsLowWord : Prop :=
  encode .sext64 = 0x0011#16 ∧
  ∀ s : State, ∃ r : Value, exec .sext64 s = .next { s with phase := .resp, rQ := r } ∧
    r.low = s.aQ.low ∧
    r.high = (if s.aQ.low.getLsbD 63 = true then 0xffffffffffffffff#64 else 0#64) ∧
    r.S = s.aQ.low.toInt

/-- R73: reinterpretation changes no bit; the two readings differ by `2^128` for a negative value. -/
def Obligations.ReadingsDifferBySign : Prop :=
  ∀ x : Value,
    (x.isNeg = true → (x.U : Int) = x.S + 2 ^ 128) ∧ (x.isNeg = false → (x.U : Int) = x.S)

/-! ## Comparison (41_compare.md) -/

/-- R80. -/
def Obligations.EqComparesAllBits : Prop :=
  encode .eq = 0x0020#16 ∧
  (∀ s : State, exec .eq s = .next { s with
    phase := .resp
    rQ := if s.aQ.high = s.bQ.high ∧ s.aQ.low = s.bQ.low then ⟨0, 1⟩ else ⟨0, 0⟩ }) ∧
  ∀ a b : Value,
    (eq128 a b = true ↔ a.U = b.U) ∧ (eq128 a b = true ↔ a.S = b.S) ∧
    (eq128 a b = true ↔ ∀ i < 128, a.bit i = b.bit i)

/-- R81 to R84: LTU, GTU, LEU, GEU are the order of the unsigned readings. -/
def Obligations.UnsignedComparisonsAreNumericOrder : Prop :=
  encode .ltu = 0x0021#16 ∧ encode .gtu = 0x0022#16 ∧ encode .leu = 0x0023#16 ∧
  encode .geu = 0x0024#16 ∧
  ∀ s : State,
    exec .ltu s = .next { s with
      phase := .resp, rQ := if s.aQ.U < s.bQ.U then ⟨0, 1⟩ else ⟨0, 0⟩ } ∧
    exec .gtu s = .next { s with
      phase := .resp, rQ := if s.aQ.U > s.bQ.U then ⟨0, 1⟩ else ⟨0, 0⟩ } ∧
    exec .leu s = .next { s with
      phase := .resp, rQ := if s.aQ.U ≤ s.bQ.U then ⟨0, 1⟩ else ⟨0, 0⟩ } ∧
    exec .geu s = .next { s with
      phase := .resp, rQ := if s.aQ.U ≥ s.bQ.U then ⟨0, 1⟩ else ⟨0, 0⟩ }

/-- R85 to R88: LTS, GTS, LES, GES compare the high words as signed words and, on a tie, the low words as signed
words too. -/
def Obligations.SignedComparisonsBreakTiesBySignedLowWord : Prop :=
  encode .lts = 0x0029#16 ∧ encode .gts = 0x002A#16 ∧ encode .les = 0x002B#16 ∧
  encode .ges = 0x002C#16 ∧
  ∀ s : State,
    let less (x y : Value) : Prop :=
      x.high.toInt < y.high.toInt ∨ (x.high = y.high ∧ x.low.toInt < y.low.toInt)
    ∃ lt gt le ge : Value,
      exec .lts s = .next { s with phase := .resp, rQ := lt } ∧
      exec .gts s = .next { s with phase := .resp, rQ := gt } ∧
      exec .les s = .next { s with phase := .resp, rQ := le } ∧
      exec .ges s = .next { s with phase := .resp, rQ := ge } ∧
      (less s.aQ s.bQ → lt = ⟨0, 1⟩) ∧ (¬less s.aQ s.bQ → lt = ⟨0, 0⟩) ∧
      (less s.bQ s.aQ → gt = ⟨0, 1⟩) ∧ (¬less s.bQ s.aQ → gt = ⟨0, 0⟩) ∧
      (less s.aQ s.bQ ∨ s.aQ = s.bQ → le = ⟨0, 1⟩) ∧
      (¬(less s.aQ s.bQ ∨ s.aQ = s.bQ) → le = ⟨0, 0⟩) ∧
      (less s.bQ s.aQ ∨ s.aQ = s.bQ → ge = ⟨0, 1⟩) ∧
      (¬(less s.bQ s.aQ ∨ s.aQ = s.bQ) → ge = ⟨0, 0⟩)

/-- R89: the signed comparisons are the numeric order where the high words differ or the low words' top bits
agree, and the opposite of it where the high words tie and the low words' top bits differ. -/
def Obligations.SignedOrderLeavesNumericOrderOnTies : Prop :=
  ∀ a b : Value,
    ((a.high ≠ b.high ∨ a.low.getLsbD 63 = b.low.getLsbD 63) →
      (lts128 a b = true ↔ a.S < b.S) ∧ (gts128 a b = true ↔ a.S > b.S) ∧
      (les128 a b = true ↔ a.S ≤ b.S) ∧ (ges128 a b = true ↔ a.S ≥ b.S)) ∧
    ((a.high = b.high ∧ a.low.getLsbD 63 ≠ b.low.getLsbD 63) →
      (lts128 a b = true ↔ a.S > b.S) ∧ (gts128 a b = true ↔ a.S < b.S) ∧
      (les128 a b = true ↔ a.S ≥ b.S) ∧ (ges128 a b = true ↔ a.S ≤ b.S))

/-- R90: both orders are strict total orders on bit patterns, and the derived comparisons are the negations of the
opposite strict ones. -/
def Obligations.OrdersAreStrictAndTotal : Prop :=
  (∀ a b : Value,
    ((ltu128 a b).toNat + (eq128 a b).toNat + (gtu128 a b).toNat = 1) ∧
    ((lts128 a b).toNat + (eq128 a b).toNat + (gts128 a b).toNat = 1) ∧
    leu128 a b = !gtu128 a b ∧ geu128 a b = !ltu128 a b ∧
    les128 a b = !gts128 a b ∧ ges128 a b = !lts128 a b ∧
    (lts128 a b = true ↔
      a.high.toInt < b.high.toInt ∨ (a.high.toInt = b.high.toInt ∧ a.low.toInt < b.low.toInt))) ∧
  (∀ a : Value, ltu128 a a = false ∧ lts128 a a = false) ∧
  (∀ a b c : Value,
    (ltu128 a b = true → ltu128 b c = true → ltu128 a c = true) ∧
    (lts128 a b = true → lts128 b c = true → lts128 a c = true))

/-- 41_compare.md section 4: the sign is bit 127 and not `LTS(x, ZERO)`, which differs from it for a value whose high
word is 0 and whose low word has its top bit set. -/
def Obligations.SignIsBit127NotLessThanZero : Prop :=
  ∀ x : Value,
    (x.isNeg = true ↔ x.bit 127 = true) ∧ (x.isNeg = true ↔ x.S < 0) ∧
    (lts128 x Value.zero = true ↔ x.isNeg = true ∨ (x.high = 0 ∧ x.low.getLsbD 63 = true))

/-! ## Bitwise (42_bitwise.md) -/

/-- R100 to R103: bit by bit, with NOT's two value laws. -/
def Obligations.BitwiseCommandsActBitByBit : Prop :=
  encode .and = 0x0030#16 ∧ encode .or = 0x0031#16 ∧ encode .xor = 0x0032#16 ∧
  encode .not = 0x0033#16 ∧
  ∀ s : State, ∃ ra ro rx rn : Value,
    exec .and s = .next { s with phase := .resp, rQ := ra } ∧
    exec .or s = .next { s with phase := .resp, rQ := ro } ∧
    exec .xor s = .next { s with phase := .resp, rQ := rx } ∧
    exec .not s = .next { s with phase := .resp, rQ := rn } ∧
    (∀ i < 128,
      ra.bit i = (s.aQ.bit i && s.bQ.bit i) ∧ ro.bit i = (s.aQ.bit i || s.bQ.bit i) ∧
      rx.bit i = (s.aQ.bit i ^^ s.bQ.bit i) ∧ rn.bit i = !s.aQ.bit i) ∧
    rn.U = 2 ^ 128 - 1 - s.aQ.U ∧ rn.S = -s.aQ.S - 1

/-- 42_bitwise.md: no bit of one word of the result depends on the other word of an operand. -/
def Obligations.BitwiseWordsAreIndependent : Prop :=
  ∀ i : Instr, i ∈ [.and, .or, .xor, .not] → ∀ s t : State,
    ∃ s' t', exec i s = .next s' ∧ exec i t = .next t' ∧
      (s.aQ.high = t.aQ.high → s.bQ.high = t.bQ.high → s'.rQ.high = t'.rQ.high) ∧
      (s.aQ.low = t.aQ.low → s.bQ.low = t.bQ.low → s'.rQ.low = t'.rQ.low)

/-! ## Shifts (43_shift.md) -/

/-- R111, for every amount 0 to 127. -/
def Obligations.ShlMultipliesByPowerOfTwo : Prop :=
  ∀ n : BitVec 7, (encode (.shl n)).toNat = n.toNat * 256 + 0x40 ∧
  ∀ s : State, ∃ r : Value, exec (.shl n) s = .next { s with phase := .resp, rQ := r } ∧
    (if n.toNat = 0 then r = s.aQ
      else if 64 ≤ n.toNat then r = ⟨s.aQ.low <<< (n.toNat - 64), 0⟩
      else r = ⟨s.aQ.high <<< n.toNat ||| s.aQ.low >>> (64 - n.toNat), s.aQ.low <<< n.toNat⟩) ∧
    r.U = s.aQ.U * 2 ^ n.toNat % 2 ^ 128

/-- R112, for every amount 0 to 127. -/
def Obligations.ShrlDividesByPowerOfTwo : Prop :=
  ∀ n : BitVec 7, (encode (.shrl n)).toNat = n.toNat * 256 + 0x41 ∧
  ∀ s : State, ∃ r : Value, exec (.shrl n) s = .next { s with phase := .resp, rQ := r } ∧
    (if n.toNat = 0 then r = s.aQ
      else if 64 ≤ n.toNat then r = ⟨0, s.aQ.high >>> (n.toNat - 64)⟩
      else r = ⟨s.aQ.high >>> n.toNat, s.aQ.low >>> n.toNat ||| s.aQ.high <<< (64 - n.toNat)⟩) ∧
    r.U = s.aQ.U / 2 ^ n.toNat

/-- R113, for every amount 0 to 127: the floor of the signed reading, with the exact word at `n = 64`. -/
def Obligations.ShraFloorsSignedQuotient : Prop :=
  ∀ n : BitVec 7, (encode (.shra n)).toNat = n.toNat * 256 + 0x42 ∧
  ∀ s : State, ∃ r : Value, exec (.shra n) s = .next { s with phase := .resp, rQ := r } ∧
    (if s.aQ.isNeg = false then r.U = s.aQ.U / 2 ^ n.toNat
      else if n.toNat = 0 then r = s.aQ
      else if n.toNat ≤ 63 then
        r = ⟨s.aQ.high >>> n.toNat ||| 0xffffffffffffffff#64 <<< (64 - n.toNat),
          s.aQ.low >>> n.toNat ||| s.aQ.high <<< (64 - n.toNat)⟩
      else if n.toNat = 64 then r = ⟨0xffffffffffffffff#64, s.aQ.high⟩
      else
        r = ⟨0xffffffffffffffff#64,
          s.aQ.high >>> (n.toNat - 64) |||
            0xffffffffffffffff#64 <<< (64 - (n.toNat - 64))⟩) ∧
    r.S = Int.fdiv s.aQ.S (2 ^ n.toNat)

/-- R114. -/
def Obligations.ShiftsComposeAndClear : Prop :=
  ∀ (x : Value) (m n : Nat), n ≤ 127 →
    (shrl128 (shl128 x n) n).U = x.U % 2 ^ (128 - n) ∧
    (shl128 (shrl128 x n) n).U = x.U / 2 ^ n * 2 ^ n ∧
    (m + n ≤ 127 →
      shl128 (shl128 x m) n = shl128 x (m + n) ∧
      shrl128 (shrl128 x m) n = shrl128 x (m + n) ∧
      shra128 (shra128 x m) n = shra128 x (m + n)) ∧
    (x.isNeg = false ∨ n = 0 → shra128 x n = shrl128 x n) ∧
    shl128 x 1 = add128 x x

/-! ## Additive (44_additive.md) -/

/-- R130: the word-wise sum with its carry is the sum modulo `2^128` in both readings. -/
def Obligations.AddIsSumModulo2Pow128 : Prop :=
  encode .add = 0x0050#16 ∧
  ∀ s : State, ∃ r : Value, exec .add s = .next { s with phase := .resp, rQ := r } ∧
    r.low = s.aQ.low + s.bQ.low ∧
    r.high = s.aQ.high + s.bQ.high + (if r.low.toNat < s.aQ.low.toNat then 1 else 0) ∧
    (r.low.toNat < s.aQ.low.toNat ↔ 2 ^ 64 ≤ s.aQ.low.toNat + s.bQ.low.toNat) ∧
    r.U = (s.aQ.U + s.bQ.U) % 2 ^ 128 ∧
    r.S = Int.bmod (s.aQ.S + s.bQ.S) (2 ^ 128)

/-- R131: the complement plus one; `MIN` is its own negation. -/
def Obligations.NegIsTwosComplement : Prop :=
  encode .neg = 0x0052#16 ∧
  ∀ s : State, ∃ r : Value, exec .neg s = .next { s with phase := .resp, rQ := r } ∧
    r.low = ~~~s.aQ.low + 1 ∧
    r.high = ~~~s.aQ.high + (if s.aQ.low = 0 then 1 else 0) ∧
    r.U = (2 ^ 128 - s.aQ.U) % 2 ^ 128 ∧
    (s.aQ ≠ Value.min → r.S = -s.aQ.S) ∧ (s.aQ = Value.min → r = Value.min) ∧
    r = add128 (not128 s.aQ) Value.one

/-- R132: `ADD(A, NEG(B))`, the difference modulo `2^128` in both readings, and the borrow form. -/
def Obligations.SubIsDifferenceModulo2Pow128 : Prop :=
  encode .sub = 0x0051#16 ∧
  ∀ s : State, ∃ r : Value, exec .sub s = .next { s with phase := .resp, rQ := r } ∧
    r = add128 s.aQ (neg128 s.bQ) ∧
    (r.U : Int) = ((s.aQ.U : Int) - s.bQ.U) % 2 ^ 128 ∧
    r.S = Int.bmod (s.aQ.S - s.bQ.S) (2 ^ 128) ∧
    r.low = s.aQ.low - s.bQ.low ∧
    r.high = s.aQ.high - s.bQ.high - (if s.aQ.low.toNat < s.bQ.low.toNat then 1 else 0)

/-- R133: closure, round trip, and the group of the integers modulo `2^128`. -/
def Obligations.AddFormsGroupWithNeg : Prop :=
  (∀ a : Value, add128 a (neg128 a) = Value.zero ∧ add128 a Value.zero = a) ∧
  (∀ a b : Value, add128 a b = add128 b a ∧ sub128 (add128 a b) b = a) ∧
  (∀ a b c : Value, add128 (add128 a b) c = add128 a (add128 b c)) ∧
  add128 Value.max Value.one = Value.min ∧ add128 Value.umax Value.one = Value.zero

/-- R134: overflow is never signalled: on all operands ADD, SUB and NEG return the exact integer result wrapped
modulo `2^128`, the same one in both readings, and change nothing else; `NEG(MIN)` is `MIN`; and the carry-out of an
unsigned sum is `LTU(ADD(A, B), A)`. -/
def Obligations.AdditiveOverflowNeverSignalled : Prop :=
  (∀ s : State,
    exec .add s = .next { s with phase := .resp, rQ := Value.V (s.aQ.U + s.bQ.U) } ∧
    exec .sub s = .next { s with phase := .resp, rQ := Value.V (s.aQ.U - s.bQ.U) } ∧
    exec .neg s = .next { s with phase := .resp, rQ := Value.V (-s.aQ.U) } ∧
    Value.V (s.aQ.U + s.bQ.U) = Value.V (s.aQ.S + s.bQ.S) ∧
    Value.V (s.aQ.U - s.bQ.U) = Value.V (s.aQ.S - s.bQ.S) ∧
    Value.V (-s.aQ.U) = Value.V (-s.aQ.S)) ∧
  neg128 Value.min = Value.min ∧
  ∀ a b : Value, (ltu128 (add128 a b) a = true ↔ 2 ^ 128 ≤ a.U + b.U)

/-! ## Multiplication (45_multiply.md) -/

/-- R150: the exact 128-bit product of the two low words; the high words are ignored. -/
def Obligations.Mul64uIsExactProduct : Prop :=
  encode .mul64u = 0x0060#16 ∧
  ∀ s : State, ∃ r : Value, exec .mul64u s = .next { s with phase := .resp, rQ := r } ∧
    r.U = s.aQ.low.toNat * s.bQ.low.toNat

/-- R151: the unsigned product with its corrections is the exact signed product. -/
def Obligations.Mul64sIsExactSignedProduct : Prop :=
  encode .mul64s = 0x0061#16 ∧
  ∀ s : State, ∃ r : Value, exec .mul64s s = .next { s with phase := .resp, rQ := r } ∧
    r.low = (mul64u s.aQ.low s.bQ.low).low ∧
    r.high = (mul64u s.aQ.low s.bQ.low).high
      - (if s.aQ.low.getLsbD 63 = true then s.bQ.low else 0)
      - (if s.bQ.low.getLsbD 63 = true then s.aQ.low else 0) ∧
    r.S = s.aQ.low.toInt * s.bQ.low.toInt

/-- R152: the low 128 bits of the product, from three partial products. -/
def Obligations.MuluIsProductModulo2Pow128 : Prop :=
  encode .mulu = 0x0062#16 ∧
  ∀ s : State, ∃ r : Value, exec .mulu s = .next { s with phase := .resp, rQ := r } ∧
    r.low = (mul64u s.aQ.low s.bQ.low).low ∧
    r.high = (mul64u s.aQ.low s.bQ.low).high + (mul64u s.aQ.low s.bQ.high).low
      + (mul64u s.aQ.high s.bQ.low).low ∧
    r.U = s.aQ.U * s.bQ.U % 2 ^ 128

/-- R153: the signed product wrapped; by `-1`, on either side, it is exactly the negation. -/
def Obligations.MulsIsWrappedSignedProduct : Prop :=
  encode .muls = 0x0063#16 ∧
  ∀ s : State, ∃ r : Value, exec .muls s = .next { s with phase := .resp, rQ := r } ∧
    r.S = Int.bmod (s.aQ.S * s.bQ.S) (2 ^ 128) ∧
    (s.bQ = Value.minusOne → r = neg128 s.aQ) ∧ (s.aQ = Value.minusOne → r = neg128 s.bQ)

/-- R154: MULS and MULU return the same bits; here, they run alike in every state. -/
def Obligations.MulsAndMuluAgree : Prop :=
  ∀ s : State, exec .muls s = exec .mulu s

/-- R155: the power-of-ten chain and multiplication by minus one. -/
def Obligations.PowersOfTenAndMinusOne : Prop :=
  let power (k : Nat) : Value := (fun x => mulu128 x (Value.V 10))^[k] Value.one
  (∀ k < 38, gtu128 (power (k + 1)) (power k) = true) ∧
  power 38 = Value.V (10 ^ 38) ∧
  power 39 = ⟨0xf050fe938943acc4, 0x5f65568000000000⟩ ∧
  ∀ x : Value, muls128 x Value.minusOne = neg128 x

/-! ## Division (46_divide.md) -/

/-- 46_divide.md section 2: for a non-zero divisor the shift-and-subtract engine gives the exact quotient and
remainder. -/
def Obligations.DivisionEngineIsExact : Prop :=
  ∀ a b : Value, b ≠ Value.zero →
    (divModU a b).1.U = a.U / b.U ∧ (divModU a b).2.U = a.U % b.U

/-- R172. The working registers `g` are hidden state (R31). -/
def Obligations.DivuIsFloorQuotient : Prop :=
  encode .divu = 0x0070#16 ∧
  ∀ s : State, s.bQ ≠ Value.zero → ∃ r g,
    exec .divu s = .next { s with phase := .resp, rQ := r, divRegs := g } ∧
    r = (divModU s.aQ s.bQ).1 ∧ r.U = s.aQ.U / s.bQ.U

/-- R173. -/
def Obligations.RemuIsUnsignedRemainder : Prop :=
  encode .remu = 0x0071#16 ∧
  ∀ s : State, s.bQ ≠ Value.zero → ∃ r g,
    exec .remu s = .next { s with phase := .resp, rQ := r, divRegs := g } ∧
    r = (divModU s.aQ s.bQ).2 ∧ r.U = s.aQ.U % s.bQ.U

/-- R174: the magnitude of a signed value, `MIN` included. -/
def Obligations.Abs128IsMagnitude : Prop :=
  ∀ x : Value,
    (x.isNeg = true → abs128 x = neg128 x) ∧ (x.isNeg = false → abs128 x = x) ∧
    (abs128 x).U = x.S.natAbs

/-- R175: the branches in their order; in the general one, the quotient truncated toward zero and wrapped. -/
def Obligations.DivsTruncatesTowardZero : Prop :=
  encode .divs = 0x0072#16 ∧
  ∀ s : State, s.bQ ≠ Value.zero → ∃ r g,
    exec .divs s = .next { s with phase := .resp, rQ := r, divRegs := g } ∧
    (if s.aQ = Value.min ∧ s.bQ = Value.min then r = Value.one
      else if s.bQ = Value.min then r = Value.zero
      else if s.aQ = Value.min ∧ s.config.divsMinDividend = .literalZero then r = Value.zero
      else r.S = Int.bmod (Int.tdiv s.aQ.S s.bQ.S) (2 ^ 128)) ∧
    (s.config.divsMinDividend = .truncating →
      r.S = Int.bmod (Int.tdiv s.aQ.S s.bQ.S) (2 ^ 128))

/-- R176: the remainder has the dividend's sign, whatever the parameter; the divisor's sign does not matter. -/
def Obligations.RemsHasSignOfDividend : Prop :=
  encode .rems = 0x0073#16 ∧
  ∀ s : State, s.bQ ≠ Value.zero → ∃ r g,
    exec .rems s = .next { s with phase := .resp, rQ := r, divRegs := g } ∧
    r.S = Int.tmod s.aQ.S s.bQ.S ∧ r.S.natAbs < s.bQ.S.natAbs ∧
    (r = Value.zero ∨ r.isNeg = s.aQ.isNeg) ∧
    rems128 s.aQ (neg128 s.bQ) = r ∧
    (s.bQ = Value.min → s.aQ ≠ Value.min → r = s.aQ)

/-- R177: the division identities, and where the signed one fails under `literal_zero`. -/
def Obligations.QuotientTimesDivisorPlusRemainder : Prop :=
  ∀ a b : Value, b ≠ Value.zero →
    add128 (mulu128 (divModU a b).1 b) (divModU a b).2 = a ∧
    ltu128 (divModU a b).2 b = true ∧
    add128 (muls128 (divs128 ⟨.truncating⟩ a b) b) (rems128 a b) = a ∧
    (add128 (muls128 (divs128 ⟨.literalZero⟩ a b) b) (rems128 a b) = a ↔
      ¬(a = Value.min ∧ b ≠ Value.min)) ∧
    (b ≠ Value.min → rems128 Value.min b ≠ Value.min)

/-- R178: the source's testable properties of division, with the one that holds under `literal_zero` only. -/
def Obligations.DivisionEdgeCases : Prop :=
  (∀ c : Config,
    divs128 c Value.min Value.min = Value.one ∧ rems128 Value.min Value.min = Value.zero ∧
    divs128 c Value.minusOne Value.minusOne = Value.one ∧
    divs128 c Value.minusOne Value.one = Value.minusOne ∧
    divs128 c Value.one Value.minusOne = Value.minusOne ∧
    divs128 c Value.one Value.one = Value.one) ∧
  (∀ x : Value, x ≠ Value.min → rems128 x Value.min = x) ∧
  (∀ b : Value, b ≠ Value.zero → b ≠ Value.min →
    divs128 ⟨.literalZero⟩ Value.min b = Value.zero ∧
    divs128 ⟨.truncating⟩ Value.min b ≠ Value.zero) ∧
  (∀ a b : Value, 0 < a.S → b ≠ Value.zero →
    rems128 (neg128 a) b = neg128 (rems128 a b)) ∧
  rems128 (Value.V 85070591730234615865843651857942052863) (Value.V 1234567890)
    = Value.V 1122498603

/-- R179: the alignment loop ends by its own test within 127 passes; the subtract loop takes `k + 1` passes, at
most 128, where `2^k` is the tracker after alignment; the worst cases take 127 and 128. So the model's counts (log 18)
never cut a loop short. The two early exits of R171 give their results, and R179 says that they take no
iteration. That they leave the working registers as they were is the model's choice (log 10): the rules do not
state it, and these clauses rest on that reading. -/
def Obligations.DivisionLoopsAreBounded : Prop :=
  (∀ a b : Value, b ≠ Value.zero → b.U ≤ a.U →
    (∀ j, alignLoop a (127 + j) b Value.one = alignLoop a 127 b Value.one) ∧
    alignAgain a (alignLoop a 127 b Value.one).1 = false ∧
    ∃ k ≤ 127, (afterAlignment a b).cur.U = 2 ^ k ∧
      (∀ j ≤ k, (subtractLoop j (afterAlignment a b)).cur ≠ Value.zero) ∧
      (subtractLoop (k + 1) (afterAlignment a b)).cur = Value.zero ∧
      divEngine a b = subtractLoop (k + 1) (afterAlignment a b)) ∧
  (alignLoop Value.umax 127 Value.one Value.one).2.U = 2 ^ 127 ∧
  (alignLoop Value.min 127 Value.one Value.one).2.U = 2 ^ 127 ∧
  (∀ a b : Value, b ≠ Value.zero → a.U < b.U →
    divModU a b = (Value.zero, a) ∧ ∀ g, divRegsAfter g a b = g) ∧
  (∀ a : Value, a ≠ Value.zero →
    divModU a a = (Value.one, Value.zero) ∧ ∀ g, divRegsAfter g a a = g)

/-- R180: the parameter decides `DIVS(MIN, B)` for `B` not in `{MIN, ZERO}` and nothing else; there the two
readings always differ. -/
def Obligations.ParameterDecidesOnlyMinDividend : Prop :=
  (∀ (i : Instr) (s t : State) (c : Config),
    (i ≠ .divs ∨ s.aQ ≠ Value.min ∨ s.bQ = Value.min) → exec i s = .next t →
      ∃ u, exec i { s with config := c } = .next u ∧ u.rQ = t.rQ) ∧
  (∀ s : State, s.aQ = Value.min → s.bQ ≠ Value.min → s.bQ ≠ Value.zero →
    ∃ t u, exec .divs { s with config := ⟨.truncating⟩ } = .next t ∧
      exec .divs { s with config := ⟨.literalZero⟩ } = .next u ∧
      t.rQ.S = Int.bmod (Int.tdiv Value.min.S s.bQ.S) (2 ^ 128) ∧ u.rQ = Value.zero ∧
      t.rQ ≠ u.rQ)

/-- The hidden working registers (R31): a division that reaches the engine leaves quotient, remainder and an empty
tracker in them; no command's response depends on them. What they hold after an early exit is the
model's reading (log 10) and not said. -/
def Obligations.WorkingRegistersHoldEngineResult : Prop :=
  (∀ s : State, s.bQ ≠ Value.zero → s.bQ.U < s.aQ.U →
    ∃ t, exec .divu s = .next t ∧ t.divRegs.quo.U = s.aQ.U / s.bQ.U ∧
      t.divRegs.rem.U = s.aQ.U % s.bQ.U ∧ t.divRegs.cur = Value.zero) ∧
  (∀ (i : Instr) (s t : State) (g : DivRegs), exec i s = .next t →
    ∃ u, exec i { s with divRegs := g } = .next u ∧ u.rQ = t.rQ)
end

