-- ==== Sys2Proof/Laws/State.lean ====
section
/-!
SUPPORT. What each update of the state writes and leaves: one lemma per field per update, so that no later
proof unfolds a record update.
-/

namespace Sys2Proof.Machine

variable (s : State)

@[simp] theorem State.accept_phase (o : Offer) : (s.accept o).phase = .busy := rfl
@[simp] theorem State.accept_cwQ (o : Offer) : (s.accept o).cwQ = o.cw := rfl
@[simp] theorem State.accept_aQ (o : Offer) : (s.accept o).aQ = o.a := rfl
@[simp] theorem State.accept_bQ (o : Offer) : (s.accept o).bQ = o.b := rfl
@[simp] theorem State.accept_rQ (o : Offer) : (s.accept o).rQ = s.rQ := rfl
@[simp] theorem State.accept_divRegs (o : Offer) : (s.accept o).divRegs = s.divRegs := rfl
@[simp] theorem State.accept_config (o : Offer) : (s.accept o).config = s.config := rfl
@[simp] theorem State.accept_cmdPort (o : Offer) : (s.accept o).cmdPort = none := rfl
@[simp] theorem State.accept_wires (o : Offer) : (s.accept o).wires = s.wires := rfl
@[simp] theorem State.accept_stream (o : Offer) : (s.accept o).stream = s.stream := rfl
@[simp] theorem State.accept_schedule (o : Offer) : (s.accept o).schedule = s.schedule := rfl
@[simp] theorem State.accept_responses (o : Offer) : (s.accept o).responses = s.responses := rfl
@[simp] theorem State.accept_draws (o : Offer) : (s.accept o).draws = s.draws := rfl

@[simp] theorem State.complete_phase (r : Value) : (s.complete r).phase = .resp := rfl
@[simp] theorem State.complete_cwQ (r : Value) : (s.complete r).cwQ = s.cwQ := rfl
@[simp] theorem State.complete_aQ (r : Value) : (s.complete r).aQ = s.aQ := rfl
@[simp] theorem State.complete_bQ (r : Value) : (s.complete r).bQ = s.bQ := rfl
@[simp] theorem State.complete_rQ (r : Value) : (s.complete r).rQ = r := rfl
@[simp] theorem State.complete_divRegs (r : Value) : (s.complete r).divRegs = s.divRegs := rfl
@[simp] theorem State.complete_config (r : Value) : (s.complete r).config = s.config := rfl
@[simp] theorem State.complete_cmdPort (r : Value) : (s.complete r).cmdPort = s.cmdPort := rfl
@[simp] theorem State.complete_wires (r : Value) : (s.complete r).wires = s.wires := rfl
@[simp] theorem State.complete_stream (r : Value) : (s.complete r).stream = s.stream := rfl
@[simp] theorem State.complete_schedule (r : Value) : (s.complete r).schedule = s.schedule := rfl
@[simp] theorem State.complete_responses (r : Value) : (s.complete r).responses = s.responses := rfl
@[simp] theorem State.complete_draws (r : Value) : (s.complete r).draws = s.draws := rfl

@[simp] theorem State.setDivRegs_phase (g : DivRegs) : (s.setDivRegs g).phase = s.phase := rfl
@[simp] theorem State.setDivRegs_cwQ (g : DivRegs) : (s.setDivRegs g).cwQ = s.cwQ := rfl
@[simp] theorem State.setDivRegs_aQ (g : DivRegs) : (s.setDivRegs g).aQ = s.aQ := rfl
@[simp] theorem State.setDivRegs_bQ (g : DivRegs) : (s.setDivRegs g).bQ = s.bQ := rfl
@[simp] theorem State.setDivRegs_rQ (g : DivRegs) : (s.setDivRegs g).rQ = s.rQ := rfl
@[simp] theorem State.setDivRegs_divRegs (g : DivRegs) : (s.setDivRegs g).divRegs = g := rfl
@[simp] theorem State.setDivRegs_config (g : DivRegs) : (s.setDivRegs g).config = s.config := rfl
@[simp] theorem State.setDivRegs_cmdPort (g : DivRegs) : (s.setDivRegs g).cmdPort = s.cmdPort := rfl
@[simp] theorem State.setDivRegs_wires (g : DivRegs) : (s.setDivRegs g).wires = s.wires := rfl
@[simp] theorem State.setDivRegs_stream (g : DivRegs) : (s.setDivRegs g).stream = s.stream := rfl
@[simp] theorem State.setDivRegs_schedule (g : DivRegs) : (s.setDivRegs g).schedule = s.schedule := rfl
@[simp] theorem State.setDivRegs_responses (g : DivRegs) : (s.setDivRegs g).responses = s.responses := rfl
@[simp] theorem State.setDivRegs_draws (g : DivRegs) : (s.setDivRegs g).draws = s.draws := rfl

@[simp] theorem State.deliver_phase : s.deliver.phase = .idle := rfl
@[simp] theorem State.deliver_cwQ : s.deliver.cwQ = s.cwQ := rfl
@[simp] theorem State.deliver_aQ : s.deliver.aQ = s.aQ := rfl
@[simp] theorem State.deliver_bQ : s.deliver.bQ = s.bQ := rfl
@[simp] theorem State.deliver_rQ : s.deliver.rQ = Config.freeValue s.draws := rfl
@[simp] theorem State.deliver_divRegs : s.deliver.divRegs = s.divRegs := rfl
@[simp] theorem State.deliver_config : s.deliver.config = s.config := rfl
@[simp] theorem State.deliver_cmdPort : s.deliver.cmdPort = s.cmdPort := rfl
@[simp] theorem State.deliver_wires : s.deliver.wires = s.wires := rfl
@[simp] theorem State.deliver_stream : s.deliver.stream = s.stream := rfl
@[simp] theorem State.deliver_schedule : s.deliver.schedule = s.schedule := rfl
@[simp] theorem State.deliver_responses : s.deliver.responses = s.responses ++ [some s.rQ] := rfl
@[simp] theorem State.deliver_draws : s.deliver.draws = s.draws + 1 := rfl

@[simp] theorem State.resetUnit_phase : s.resetUnit.phase = .idle := rfl
@[simp] theorem State.resetUnit_cwQ : s.resetUnit.cwQ = Config.freeCommandWord s.draws := rfl
@[simp] theorem State.resetUnit_aQ : s.resetUnit.aQ = Config.freeValue s.draws := rfl
@[simp] theorem State.resetUnit_bQ : s.resetUnit.bQ = Config.freeValue (s.draws + 1) := rfl
@[simp] theorem State.resetUnit_rQ : s.resetUnit.rQ = Config.freeValue (s.draws + 2) := rfl
@[simp] theorem State.resetUnit_divRegs :
    s.resetUnit.divRegs =
      { den := Config.freeValue (s.draws + 3)
        cur := Config.freeValue (s.draws + 4)
        rem := Config.freeValue (s.draws + 5)
        quo := Config.freeValue (s.draws + 6) } := rfl
@[simp] theorem State.resetUnit_config : s.resetUnit.config = s.config := rfl
@[simp] theorem State.resetUnit_cmdPort : s.resetUnit.cmdPort = s.cmdPort := rfl
@[simp] theorem State.resetUnit_wires : s.resetUnit.wires = s.wires := rfl
@[simp] theorem State.resetUnit_stream : s.resetUnit.stream = s.stream := rfl
@[simp] theorem State.resetUnit_schedule : s.resetUnit.schedule = s.schedule := rfl
@[simp] theorem State.resetUnit_responses :
    s.resetUnit.responses =
      if s.phase = .idle then s.responses else s.responses ++ [none] := rfl
@[simp] theorem State.resetUnit_draws : s.resetUnit.draws = s.draws + 7 := rfl

@[simp] theorem State.withInFlight_phase (cw : BitVec 16) : (s.withInFlight cw).phase = .busy := rfl
@[simp] theorem State.withInFlight_cwQ (cw : BitVec 16) : (s.withInFlight cw).cwQ = cw := rfl
@[simp] theorem State.withInFlight_aQ (cw : BitVec 16) : (s.withInFlight cw).aQ = s.aQ := rfl
@[simp] theorem State.withInFlight_bQ (cw : BitVec 16) : (s.withInFlight cw).bQ = s.bQ := rfl
@[simp] theorem State.withInFlight_rQ (cw : BitVec 16) : (s.withInFlight cw).rQ = s.rQ := rfl
@[simp] theorem State.withInFlight_divRegs (cw : BitVec 16) : (s.withInFlight cw).divRegs = s.divRegs := rfl
@[simp] theorem State.withInFlight_config (cw : BitVec 16) : (s.withInFlight cw).config = s.config := rfl
@[simp] theorem State.withInFlight_cmdPort (cw : BitVec 16) : (s.withInFlight cw).cmdPort = s.cmdPort := rfl
@[simp] theorem State.withInFlight_wires (cw : BitVec 16) :
    (s.withInFlight cw).wires =
      { s.wires with rst := false } := rfl
@[simp] theorem State.withInFlight_stream (cw : BitVec 16) : (s.withInFlight cw).stream = s.stream := rfl
@[simp] theorem State.withInFlight_schedule (cw : BitVec 16) :
    (s.withInFlight cw).schedule =
      s.schedule := rfl
@[simp] theorem State.withInFlight_responses (cw : BitVec 16) :
    (s.withInFlight cw).responses =
      s.responses := rfl
@[simp] theorem State.withInFlight_draws (cw : BitVec 16) : (s.withInFlight cw).draws = s.draws := rfl

@[simp] theorem State.launch_phase (program : List Command) : (s.launch program).phase = s.phase := rfl
@[simp] theorem State.launch_cwQ (program : List Command) : (s.launch program).cwQ = s.cwQ := rfl
@[simp] theorem State.launch_aQ (program : List Command) : (s.launch program).aQ = s.aQ := rfl
@[simp] theorem State.launch_bQ (program : List Command) : (s.launch program).bQ = s.bQ := rfl
@[simp] theorem State.launch_rQ (program : List Command) : (s.launch program).rQ = s.rQ := rfl
@[simp] theorem State.launch_divRegs (program : List Command) :
    (s.launch program).divRegs =
      s.divRegs := rfl
@[simp] theorem State.launch_config (program : List Command) : (s.launch program).config = s.config := rfl
@[simp] theorem State.launch_cmdPort (program : List Command) :
    (s.launch program).cmdPort =
      s.cmdPort := rfl
@[simp] theorem State.launch_wires (program : List Command) : (s.launch program).wires = s.wires := rfl
@[simp] theorem State.launch_stream (program : List Command) : (s.launch program).stream = program := rfl
@[simp] theorem State.launch_schedule (program : List Command) :
    (s.launch program).schedule =
      s.schedule := rfl
@[simp] theorem State.launch_responses (program : List Command) : (s.launch program).responses = [] := rfl
@[simp] theorem State.launch_draws (program : List Command) : (s.launch program).draws = s.draws := rfl

@[simp] theorem State.setWires_phase : s.setWires.phase = s.phase := by
  unfold State.setWires; split <;> rfl
@[simp] theorem State.setWires_cwQ : s.setWires.cwQ = s.cwQ := by
  unfold State.setWires; split <;> rfl
@[simp] theorem State.setWires_aQ : s.setWires.aQ = s.aQ := by
  unfold State.setWires; split <;> rfl
@[simp] theorem State.setWires_bQ : s.setWires.bQ = s.bQ := by
  unfold State.setWires; split <;> rfl
@[simp] theorem State.setWires_rQ : s.setWires.rQ = s.rQ := by
  unfold State.setWires; split <;> rfl
@[simp] theorem State.setWires_divRegs : s.setWires.divRegs = s.divRegs := by
  unfold State.setWires; split <;> rfl
@[simp] theorem State.setWires_config : s.setWires.config = s.config := by
  unfold State.setWires; split <;> rfl
@[simp] theorem State.setWires_cmdPort : s.setWires.cmdPort = s.cmdPort := by
  unfold State.setWires; split <;> rfl
@[simp] theorem State.setWires_stream : s.setWires.stream = s.stream := by
  unfold State.setWires; split <;> rfl
@[simp] theorem State.setWires_responses : s.setWires.responses = s.responses := by
  unfold State.setWires; split <;> rfl
@[simp] theorem State.setWires_draws : s.setWires.draws = s.draws := by
  unfold State.setWires; split <;> rfl

/-- Where the schedule has ended the host goes on as it is. -/
theorem State.setWires_of_nil (h : s.schedule = []) : s.setWires = s := by
  unfold State.setWires; rw [h]

theorem State.setWires_of_cons {w : Wires} {ws : List Wires} (h : s.schedule = w :: ws) :
    s.setWires = { s with wires := w, schedule := ws } := by
  unfold State.setWires; rw [h]

/-- What the host's presenting can do: nothing, or raise its next command on the free port. -/
theorem State.present_cases :
    s.present = s ∨
      s.wires.present = true ∧ s.cmdPort = none ∧ ∃ o, s.nextOffer = some o ∧
        s.present = { s with cmdPort := some o, stream := s.stream.tail } := by
  unfold State.present
  split
  next => exact .inl rfl
  next hp =>
    split
    next hw =>
      split
      next o ho => exact .inr ⟨hw, hp, o, ho, rfl⟩
      next => exact .inl rfl
    next => exact .inl rfl

/-- An offer that stands is neither changed nor withdrawn. -/
theorem State.present_of_some {o : Offer} (h : s.cmdPort = some o) : s.present = s := by
  unfold State.present; rw [h]

/-- A host that presents nothing leaves the port as it is. -/
theorem State.present_of_not (h : s.wires.present = false) : s.present = s := by
  unfold State.present; split <;> simp [h]

/-- What the next offer is: the head of the stream with its operands resolved. -/
theorem State.nextOffer_eq_some {o : Offer} (h : s.nextOffer = some o) :
    ∃ c cs, s.stream = c :: cs ∧ c.cw = o.cw ∧ resolveOperand s.responses c.a = some o.a ∧
      resolveOperand s.responses c.b = some o.b := by
  unfold State.nextOffer at h
  split at h
  next => cases h
  next c cs hc =>
    split at h
    next a b ha hb =>
      simp only [Option.some.injEq] at h
      subst h
      exact ⟨c, cs, hc, rfl, ha, hb⟩
    next => cases h

@[simp] theorem State.present_phase : s.present.phase = s.phase := by
  obtain h | ⟨-, -, o, -, h⟩ := s.present_cases <;> rw [h]
@[simp] theorem State.present_cwQ : s.present.cwQ = s.cwQ := by
  obtain h | ⟨-, -, o, -, h⟩ := s.present_cases <;> rw [h]
@[simp] theorem State.present_aQ : s.present.aQ = s.aQ := by
  obtain h | ⟨-, -, o, -, h⟩ := s.present_cases <;> rw [h]
@[simp] theorem State.present_bQ : s.present.bQ = s.bQ := by
  obtain h | ⟨-, -, o, -, h⟩ := s.present_cases <;> rw [h]
@[simp] theorem State.present_rQ : s.present.rQ = s.rQ := by
  obtain h | ⟨-, -, o, -, h⟩ := s.present_cases <;> rw [h]
@[simp] theorem State.present_divRegs : s.present.divRegs = s.divRegs := by
  obtain h | ⟨-, -, o, -, h⟩ := s.present_cases <;> rw [h]
@[simp] theorem State.present_config : s.present.config = s.config := by
  obtain h | ⟨-, -, o, -, h⟩ := s.present_cases <;> rw [h]
@[simp] theorem State.present_wires : s.present.wires = s.wires := by
  obtain h | ⟨-, -, o, -, h⟩ := s.present_cases <;> rw [h]
@[simp] theorem State.present_schedule : s.present.schedule = s.schedule := by
  obtain h | ⟨-, -, o, -, h⟩ := s.present_cases <;> rw [h]
@[simp] theorem State.present_responses : s.present.responses = s.responses := by
  obtain h | ⟨-, -, o, -, h⟩ := s.present_cases <;> rw [h]
@[simp] theorem State.present_draws : s.present.draws = s.draws := by
  obtain h | ⟨-, -, o, -, h⟩ := s.present_cases <;> rw [h]

@[simp] theorem State.advance_phase : s.advance.phase = s.phase := by simp [State.advance]
@[simp] theorem State.advance_cwQ : s.advance.cwQ = s.cwQ := by simp [State.advance]
@[simp] theorem State.advance_aQ : s.advance.aQ = s.aQ := by simp [State.advance]
@[simp] theorem State.advance_bQ : s.advance.bQ = s.bQ := by simp [State.advance]
@[simp] theorem State.advance_rQ : s.advance.rQ = s.rQ := by simp [State.advance]
@[simp] theorem State.advance_divRegs : s.advance.divRegs = s.divRegs := by simp [State.advance]
@[simp] theorem State.advance_config : s.advance.config = s.config := by simp [State.advance]
@[simp] theorem State.advance_responses : s.advance.responses = s.responses := by simp [State.advance]
@[simp] theorem State.advance_draws : s.advance.draws = s.draws := by simp [State.advance]

/-- An offer that stands, stands after the host's part too. -/
theorem State.advance_cmdPort_of_some {o : Offer} (h : s.cmdPort = some o) :
    s.advance.cmdPort = some o := by
  rw [State.advance, State.present_of_some _ (by simpa using h)]
  simpa using h

end Sys2Proof.Machine
end

