-- ==== Sys2Proof/Laws/Ops.lean ====
section
/-!
SUPPORT. For each shared operation, for `exec` and for `step`, one lemma that says everything it can do where it
answers a next state.
-/

namespace Sys2Proof.Machine

variable {s t : State}

@[simp] theorem advanceNext_next : advanceNext (.next s) = .next s.advance := rfl

@[simp] theorem advanceNext_fault (r : Fault) : advanceNext (.fault r) = .fault r := rfl

@[simp] theorem advanceNext_refused (r : Refusal) : advanceNext (.refused r) = .refused r := rfl

theorem advanceNext_eq_next {o : Host.Outcome State Fault Refusal} :
    advanceNext o = .next t ↔ ∃ u, o = .next u ∧ t = u.advance := by
  cases o <;> simp [advanceNext, eq_comm]

/-- A division with a non-zero divisor completes. -/
theorem State.completeDivision_of_ne (g : DivRegs) (r : Value) (h : s.bQ ≠ Value.zero) :
    s.completeDivision g r = .next ((s.setDivRegs g).complete r) := by
  simp [State.completeDivision, h]

/-- A division with a zero divisor faults. -/
theorem State.completeDivision_of_eq (g : DivRegs) (r : Value) (h : s.bQ = Value.zero) :
    s.completeDivision g r = .fault .divisionByZero := by
  simp [State.completeDivision, h]

theorem State.completeDivision_eq_next {g : DivRegs} {r : Value} :
    s.completeDivision g r = .next t ↔ s.bQ ≠ Value.zero ∧ t = (s.setDivRegs g).complete r := by
  by_cases h : s.bQ = Value.zero <;> simp [State.completeDivision, h, eq_comm]

@[simp] theorem State.setDivRegs_self : s.setDivRegs s.divRegs = s := rfl

/-- Every meaning that answers a next state latches a result and offers it; nothing else changes but, in a
division, the working registers. -/
theorem exec_eq_next {i : Instr} (h : exec i s = .next t) :
    ∃ g r, t = (s.setDivRegs g).complete r := by
  cases i
  case divu | remu | divs | rems =>
    exact ⟨_, _, (State.completeDivision_eq_next.mp h).2⟩
  all_goals
    refine ⟨s.divRegs, t.rQ, ?_⟩
    injection h with h
    subst h
    rfl

/-- What the step in phase IDLE can do. -/
theorem State.idleStep_eq_next (h : s.idleStep = .next t) :
    (s.cmdPort = none ∧ t = s) ∨
      ∃ o i, s.cmdPort = some o ∧ decode o.cw = .ok i ∧ t = s.accept o := by
  unfold State.idleStep at h
  split at h
  next h0 => injection h with h; exact .inl ⟨h0, h.symm⟩
  next o h0 =>
    split at h
    next => cases h
    next i hi => injection h with h; exact .inr ⟨o, i, h0, hi, h.symm⟩

/-- What the step in phase BUSY can do. -/
theorem busyStep_eq_next (h : busyStep s = .next t) :
    ∃ i, s.inFlight = .ok i ∧ exec i s = .next t := by
  unfold busyStep at h
  split at h
  next => cases h
  next i hi => exact ⟨i, hi, h⟩

/-- What a step can do: RESET, ACCEPT, EXECUTE, DELIVER, or nothing while the block waits for its host. -/
theorem step_eq_next (h : step s = .next t) :
    (s.wires.rst = true ∧ t = s.resetUnit.advance) ∨
    (s.wires.rst = false ∧ s.phase = .idle ∧ s.cmdPort = none ∧ t = s.advance) ∨
    (s.wires.rst = false ∧ s.phase = .idle ∧ ∃ o i, s.cmdPort = some o ∧
      decode o.cw = .ok i ∧ t = (s.accept o).advance) ∨
    (s.wires.rst = false ∧ s.phase = .busy ∧ ∃ i u, s.inFlight = .ok i ∧ exec i s = .next u ∧
      t = u.advance) ∨
    (s.wires.rst = false ∧ s.phase = .resp ∧ s.wires.rspReady = true ∧ t = s.deliver.advance) ∨
    (s.wires.rst = false ∧ s.phase = .resp ∧ s.wires.rspReady = false ∧ t = s.advance) := by
  unfold step at h
  by_cases hr : s.wires.rst = true
  · rw [if_pos hr] at h
    injection h with h
    exact .inl ⟨hr, h.symm⟩
  · rw [if_neg hr] at h
    simp only [Bool.not_eq_true] at hr
    right
    split at h
    next hp =>
      obtain ⟨u, hu, rfl⟩ := advanceNext_eq_next.mp h
      obtain ⟨ho, rfl⟩ | ⟨o, i, ho, hi, rfl⟩ := State.idleStep_eq_next hu
      · exact .inl ⟨hr, hp, ho, rfl⟩
      · exact .inr (.inl ⟨hr, hp, o, i, ho, hi, rfl⟩)
    next hp =>
      obtain ⟨u, hu, rfl⟩ := advanceNext_eq_next.mp h
      obtain ⟨i, hi, he⟩ := busyStep_eq_next hu
      exact .inr (.inr (.inl ⟨hr, hp, i, u, hi, he, rfl⟩))
    next hp =>
      injection h with h
      subst h
      unfold State.respStep
      split
      next hy => exact .inr (.inr (.inr (.inl ⟨hr, hp, hy, rfl⟩)))
      next hy => exact .inr (.inr (.inr (.inr ⟨hr, hp, by simpa using hy, rfl⟩)))

/-- The host's part between two steps moves a command at most from its stream to the port. -/
@[simp] theorem State.advance_waitingCount : s.advance.waitingCount = s.waitingCount := by
  obtain h | ⟨-, hp, o, ho, h⟩ := s.setWires.present_cases
  · simp [State.advance, h, State.waitingCount]
  · obtain ⟨c, cs, hc, -⟩ := State.nextOffer_eq_some _ ho
    simp only [State.setWires_cmdPort, State.setWires_stream] at hp hc
    simp [State.advance, h, State.waitingCount, hp, hc, Nat.add_comm]

/-! The counts of commands over the steps. -/

@[simp] theorem State.setWires_waitingCount : s.setWires.waitingCount = s.waitingCount := by
  simp [State.waitingCount]

@[simp] theorem State.resetUnit_waitingCount : s.resetUnit.waitingCount = s.waitingCount := rfl

@[simp] theorem State.deliver_waitingCount : s.deliver.waitingCount = s.waitingCount := rfl

@[simp] theorem State.complete_waitingCount (r : Value) :
    (s.complete r).waitingCount = s.waitingCount := rfl

@[simp] theorem State.setDivRegs_waitingCount (g : DivRegs) :
    (s.setDivRegs g).waitingCount = s.waitingCount := rfl

/-- ACCEPT takes the command that is offered. -/
theorem State.accept_waitingCount {o : Offer} (h : s.cmdPort = some o) :
    (s.accept o).waitingCount + 1 = s.waitingCount := by
  simp [State.waitingCount, h, Nat.add_comm]

@[simp] theorem State.advance_acceptedCount : s.advance.acceptedCount = s.acceptedCount := by
  simp [State.acceptedCount, State.inFlightCount]

/-- A program whose operands name earlier commands of the run meets the launch premises in any state that is idle
and has no offer standing. -/
theorem State.launch_meets_premises (program : List Command) (hi : s.phase = .idle)
    (hp : s.cmdPort = none) (hw : streamWellFormedFrom 1 program = true)
    (hc : ∀ k t, Host.Core.run core k (s.launch program) = .next t → t.config = s.config) :
    Launch (.next (s.launch program)) (s.launch program) s.config.divsMinDividend where
  idle := hi
  noFault := rfl
  config k t h := by rw [hc k t h]
  program := by
    simpa [State.streamPosition, State.acceptedCount, State.inFlightCount, hi, hp] using hw

end Sys2Proof.Machine
end

