-- ==== Sys2Proof/Laws/PerInstr.lean ====
section
/-!
SUPPORT. Statements per instruction. The family Encoding: the word of every instruction is legal (30_encoding.md
R55), one lemma per constructor.
-/

namespace Sys2Proof.Laws.Encoding

/-- The encoder writes a legal command word. -/
def Statement (i : Instr) : Prop := legalWord (encode i) = true

theorem zext64 : Statement .zext64 := by unfold Statement; decide
theorem sext64 : Statement .sext64 := by unfold Statement; decide
theorem eq : Statement .eq := by unfold Statement; decide
theorem ltu : Statement .ltu := by unfold Statement; decide
theorem gtu : Statement .gtu := by unfold Statement; decide
theorem leu : Statement .leu := by unfold Statement; decide
theorem geu : Statement .geu := by unfold Statement; decide
theorem lts : Statement .lts := by unfold Statement; decide
theorem gts : Statement .gts := by unfold Statement; decide
theorem les : Statement .les := by unfold Statement; decide
theorem ges : Statement .ges := by unfold Statement; decide
theorem and : Statement .and := by unfold Statement; decide
theorem or : Statement .or := by unfold Statement; decide
theorem xor : Statement .xor := by unfold Statement; decide
theorem not : Statement .not := by unfold Statement; decide
theorem shl (n : BitVec 7) : Statement (.shl n) := by
  unfold Statement
  revert n
  decide
theorem shrl (n : BitVec 7) : Statement (.shrl n) := by
  unfold Statement
  revert n
  decide
theorem shra (n : BitVec 7) : Statement (.shra n) := by
  unfold Statement
  revert n
  decide
theorem add : Statement .add := by unfold Statement; decide
theorem sub : Statement .sub := by unfold Statement; decide
theorem neg : Statement .neg := by unfold Statement; decide
theorem mul64u : Statement .mul64u := by unfold Statement; decide
theorem mul64s : Statement .mul64s := by unfold Statement; decide
theorem mulu : Statement .mulu := by unfold Statement; decide
theorem muls : Statement .muls := by unfold Statement; decide
theorem divu : Statement .divu := by unfold Statement; decide
theorem remu : Statement .remu := by unfold Statement; decide
theorem divs : Statement .divs := by unfold Statement; decide
theorem rems : Statement .rems := by unfold Statement; decide

end Sys2Proof.Laws.Encoding
end

