-- ==== Sys2Proof/Laws/Value.lean ====
section
/-!
SUPPORT. The readings of a value (00_scope.md R7): their ranges, that each determines the value, and that `V` gives
the value of a number.
-/

namespace Sys2Proof

@[simp] theorem Value.U_mk (h l : Word) : (Value.mk h l).U = h.toNat * 2 ^ 64 + l.toNat := rfl

theorem Value.U_lt (x : Value) : x.U < 2 ^ 128 := by
  have := x.high.isLt
  have := x.low.isLt
  unfold Value.U
  omega

theorem Value.high_toNat (x : Value) : x.high.toNat = x.U / 2 ^ 64 := by
  have := x.low.isLt
  unfold Value.U
  omega

theorem Value.low_toNat (x : Value) : x.low.toNat = x.U % 2 ^ 64 := by
  have := x.low.isLt
  unfold Value.U
  omega

/-- A value is determined by its unsigned reading: every bit pattern is a distinct value (R20). -/
theorem Value.ext_U {x y : Value} (h : x.U = y.U) : x = y := by
  cases x with | mk xh xl =>
  cases y with | mk yh yl =>
  have h1 := Value.high_toNat ⟨xh, xl⟩
  have h2 := Value.high_toNat ⟨yh, yl⟩
  have h3 := Value.low_toNat ⟨xh, xl⟩
  have h4 := Value.low_toNat ⟨yh, yl⟩
  rw [h] at h1 h3
  congr 1
  · exact BitVec.eq_of_toNat_eq (h1.trans h2.symm)
  · exact BitVec.eq_of_toNat_eq (h3.trans h4.symm)

/-- The sign is bit 127, that is `2^127 ≤ U(x)` (R7). -/
theorem Value.isNeg_iff (x : Value) : x.isNeg = true ↔ 2 ^ 127 ≤ x.U := by
  have := x.low.isLt
  have := x.high.isLt
  unfold Value.isNeg Value.U
  rw [BitVec.msb_eq_decide]
  simp only [decide_eq_true_eq]
  omega

theorem Value.S_of_neg {x : Value} (h : x.isNeg = true) : x.S = x.U - 2 ^ 128 := by
  simp [Value.S, h]

theorem Value.S_of_nonneg {x : Value} (h : x.isNeg = false) : x.S = x.U := by
  simp [Value.S, h]

/-- The signed reading is the unsigned one wrapped into `-2^127 .. 2^127 - 1` (R7). -/
theorem Value.S_eq_bmod (x : Value) : x.S = Int.bmod x.U (2 ^ 128) := by
  have hU := x.U_lt
  have hm : (x.U : Int) % (2 ^ 128 : Nat) = x.U := Int.emod_eq_of_lt (by omega) (by exact_mod_cast hU)
  have hn := x.isNeg_iff
  rw [Int.bmod_def, hm]
  by_cases h : x.isNeg = true
  · rw [Value.S_of_neg h]
    have := hn.mp h
    split <;> omega
  · have h' : ¬ 2 ^ 127 ≤ x.U := fun c => h (hn.mpr c)
    rw [Value.S_of_nonneg (by simpa using h)]
    split <;> omega

theorem Value.ext_S {x y : Value} (h : x.S = y.S) : x = y := by
  apply Value.ext_U
  have hx := x.U_lt
  have hy := y.U_lt
  unfold Value.S at h
  split at h <;> split at h <;> omega

/-- `U(V(u)) = u mod 2^128` (R7). -/
theorem Value.U_V (u : Int) : ((Value.V u).U : Int) = u % 2 ^ 128 := by
  have h0 : 0 ≤ u % 2 ^ 128 := Int.emod_nonneg _ (by norm_num)
  have h1 : u % 2 ^ 128 < 2 ^ 128 := Int.emod_lt_of_pos _ (by norm_num)
  simp only [Value.V, Value.U_mk, BitVec.toNat_ofNat]
  omega

@[simp] theorem Value.V_U (x : Value) : Value.V x.U = x := by
  apply Value.ext_U
  have := x.U_lt
  have h := Value.U_V x.U
  omega

end Sys2Proof
end

