-- ==== Sys2Proof/Tests/Slice0.lean ====
section
/-!
SUPPORT. Tests of the model. Expected results come from spec/: the words of the opcode map and V-ENC, the derived
vectors of 96_test_vectors_derived.md, the transaction rows V-SEQ of 95_test_vectors.md. Each test names its
source. The witnesses at the end meet the hypotheses of the statements that have some.
-/

namespace Sys2Proof.Tests

open Sys2Proof.Machine

/-- A command in flight. -/
def busy (cw : BitVec 16) (a b : Value) : State :=
  { State.reset with phase := .busy, cwQ := cw, aQ := a, bQ := b }

/-- A host that offers one command and takes responses. -/
def offering (cw : BitVec 16) (a b : Value) : State :=
  { State.reset with
    cmdPort := some { cw := cw, a := a, b := b }
    wires := { rst := false, present := false, rspReady := true } }

/-- A response offered to a host that takes it. -/
def responding (r : Value) : State :=
  { State.reset with
    phase := .resp
    rQ := r
    wires := { rst := false, present := false, rspReady := true } }

/-- The same state with `rst` at 1. -/
def underReset (s : State) : State := { s with wires := { s.wires with rst := true } }

/-- The result latched by an outcome. -/
def resultOf : Host.Outcome State Fault Refusal → Option Value
  | .next t => some t.rQ
  | _ => none

/-- The phase after an outcome. -/
def phaseOf : Host.Outcome State Fault Refusal → Option Phase
  | .next t => some t.phase
  | _ => none

/-- The reason of a refusal. -/
def refusalOf : Host.Outcome State Fault Refusal → Option Refusal
  | .refused r => some r
  | _ => none

/-- The reason of a fault. -/
def faultOf : Host.Outcome State Fault Refusal → Option Fault
  | .fault f => some f
  | _ => none

/-! ## Well-formedness: a term each check refuses (30_encoding.md R55, R59) -/

/-- `Z = 1` (V-ENC-35). -/
theorem test_legal_refuses_z : legalWord 0x8050#16 = false := by decide

/-- An unassigned family, and an unassigned function (V-ENC-30, V-ENC-23). -/
theorem test_legal_refuses_unassigned :
    legalWord 0x0080#16 = false ∧ legalWord 0x0028#16 = false := by decide

/-- `N = 1` on ADD (V-ENC-32). -/
theorem test_legal_refuses_amount : legalWord 0x0150#16 = false := by decide

/-- `$2` in command 2, and `$0`, which no command has. -/
theorem test_operand_refuses_late_reference :
    (Operand.response 2).wellFormedAt 2 = false ∧ (Operand.response 0).wellFormedAt 2 = false ∧
      (Operand.response 1).wellFormedAt 2 = true := by decide

/-- A command with a forward reference on B; one with a reserved word has no bad reference, and is no legal
stream (program P7). -/
theorem test_command_refuses :
    streamLegal [Command.mk 0x0150#16 (.literal Value.one) (.literal Value.one)] = false ∧
      (Command.mk 0x0150#16 (.literal Value.one) (.literal Value.one)).wellFormedAt 1 = true ∧
      (Command.mk 0x0050#16 (.literal Value.one) (.response 1)).wellFormedAt 1 = false := by decide

/-- The numbering of a stream: `$1` is late in command 1 and in time in command 2. -/
theorem test_stream_refuses_forward_reference :
    streamWellFormedFrom 1
        [Command.line .add (.response 1) (.literal Value.one),
          Command.line .neg (.literal Value.one) (.literal Value.zero)] = false ∧
      streamWellFormedFrom 1
        [Command.line .neg (.literal Value.one) (.literal Value.zero),
          Command.line .add (.response 1) (.literal Value.one)] = true := by decide

/-! ## Decoding: each constructor's word written out bit by bit, `Z N FAM FN` (30_encoding.md R50, R51) -/

theorem test_decode_zext64 : decode 0b0000000000010000#16 = .ok .zext64 := by decide
theorem test_decode_sext64 : decode 0b0000000000010001#16 = .ok .sext64 := by decide
theorem test_decode_eq : decode 0b0000000000100000#16 = .ok .eq := by decide
theorem test_decode_ltu : decode 0b0000000000100001#16 = .ok .ltu := by decide
theorem test_decode_gtu : decode 0b0000000000100010#16 = .ok .gtu := by decide
theorem test_decode_leu : decode 0b0000000000100011#16 = .ok .leu := by decide
theorem test_decode_geu : decode 0b0000000000100100#16 = .ok .geu := by decide
theorem test_decode_lts : decode 0b0000000000101001#16 = .ok .lts := by decide
theorem test_decode_gts : decode 0b0000000000101010#16 = .ok .gts := by decide
theorem test_decode_les : decode 0b0000000000101011#16 = .ok .les := by decide
theorem test_decode_ges : decode 0b0000000000101100#16 = .ok .ges := by decide
theorem test_decode_and : decode 0b0000000000110000#16 = .ok .and := by decide
theorem test_decode_or : decode 0b0000000000110001#16 = .ok .or := by decide
theorem test_decode_xor : decode 0b0000000000110010#16 = .ok .xor := by decide
theorem test_decode_not : decode 0b0000000000110011#16 = .ok .not := by decide
theorem test_decode_shl : decode 0b0111111101000000#16 = .ok (.shl 127) := by decide
theorem test_decode_shrl : decode 0b0100000001000001#16 = .ok (.shrl 64) := by decide
theorem test_decode_shra : decode 0b0000000101000010#16 = .ok (.shra 1) := by decide
theorem test_decode_add : decode 0b0000000001010000#16 = .ok .add := by decide
theorem test_decode_sub : decode 0b0000000001010001#16 = .ok .sub := by decide
theorem test_decode_neg : decode 0b0000000001010010#16 = .ok .neg := by decide
theorem test_decode_mul64u : decode 0b0000000001100000#16 = .ok .mul64u := by decide
theorem test_decode_mul64s : decode 0b0000000001100001#16 = .ok .mul64s := by decide
theorem test_decode_mulu : decode 0b0000000001100010#16 = .ok .mulu := by decide
theorem test_decode_muls : decode 0b0000000001100011#16 = .ok .muls := by decide
theorem test_decode_divu : decode 0b0000000001110000#16 = .ok .divu := by decide
theorem test_decode_remu : decode 0b0000000001110001#16 = .ok .remu := by decide
theorem test_decode_divs : decode 0b0000000001110010#16 = .ok .divs := by decide
theorem test_decode_rems : decode 0b0000000001110011#16 = .ok .rems := by decide

/-- The reserved words of V-ENC-20 to V-ENC-37, with the reason. -/
theorem test_decode_reserved :
    [0x0000#16, 0x0012#16, 0x0025#16, 0x0028#16, 0x002D#16, 0x0034#16, 0x0043#16, 0x0053#16, 0x0064#16,
        0x0074#16, 0x0080#16, 0x00FF#16].all (fun w => decode w = .error .unassignedOpcode) ∧
      [0x0150#16, 0x7F70#16, 0x0120#16].all (fun w => decode w = .error .amountOnNonShift) ∧
      [0x8050#16, 0x8040#16, 0xFFFF#16].all (fun w => decode w = .error .zBitSet) := by decide

/-- The table's numbering is the word's own; a word with a bit above bit 15 is no instruction. -/
theorem test_decode_table_word :
    decodeTableWord 16 0x4040 = some (.shl 64) ∧ decodeTableWord 16 0x0150 = none ∧
      decodeTableWord 8 0x50 = some .add ∧ decodeTableWord 17 0x10050 = none := by decide

/-! ## Instructions -/

/-- V-CONV-13: A.high and B are ignored. -/
theorem test_zext64_1 :
    resultOf (exec .zext64
      (busy (encode .zext64) ⟨0xdeadbeefdeadbeef, 0x8000000000000000⟩ ⟨0xffffffffffffffff, 0xffffffffffffffff⟩)) =
      some ⟨0x0000000000000000, 0x8000000000000000⟩ := by decide

/-- V-CONV-14: A.high and B are ignored. -/
theorem test_sext64_1 :
    resultOf (exec .sext64
      (busy (encode .sext64) ⟨0xdeadbeefdeadbeef, 0x8000000000000000⟩ ⟨0xffffffffffffffff, 0xffffffffffffffff⟩)) =
      some ⟨0xffffffffffffffff, 0x8000000000000000⟩ := by decide

/-- V-CONV-15: A.high ignored: the result is +5, not the operand. -/
theorem test_sext64_2 :
    resultOf (exec .sext64
      (busy (encode .sext64) ⟨0xffffffffffffffff, 0x0000000000000005⟩ ⟨0x0000000000000000, 0x0000000000000000⟩)) =
      some ⟨0x0000000000000000, 0x0000000000000005⟩ := by decide

/-- V-CMP-8. -/
theorem test_eq_1 :
    resultOf (exec .eq
      (busy (encode .eq) ⟨0x8000000000000000, 0x0000000000000000⟩ ⟨0x8000000000000000, 0x0000000000000000⟩)) =
      some ⟨0, 1⟩ := by decide

/-- V-CMP-2. -/
theorem test_eq_2 :
    resultOf (exec .eq
      (busy (encode .eq) ⟨0x0000000000000000, 0x0000000000000000⟩ ⟨0x0000000000000000, 0x0000000000000001⟩)) =
      some ⟨0, 0⟩ := by decide

/-- V-CMP-13. -/
theorem test_ltu_1 :
    resultOf (exec .ltu
      (busy (encode .ltu) ⟨0x0000000000000000, 0x8000000000000000⟩ ⟨0x0000000000000000, 0x0000000000000001⟩)) =
      some ⟨0, 0⟩ := by decide

/-- V-CMP-11. -/
theorem test_ltu_2 :
    resultOf (exec .ltu
      (busy (encode .ltu) ⟨0x0000000000000000, 0xffffffffffffffff⟩ ⟨0x0000000000000001, 0x0000000000000000⟩)) =
      some ⟨0, 1⟩ := by decide

/-- V-CMP-12. -/
theorem test_gtu_1 :
    resultOf (exec .gtu
      (busy (encode .gtu) ⟨0x0000000000000001, 0x0000000000000000⟩ ⟨0x0000000000000000, 0xffffffffffffffff⟩)) =
      some ⟨0, 1⟩ := by decide

/-- V-CMP-14. -/
theorem test_gtu_2 :
    resultOf (exec .gtu
      (busy (encode .gtu) ⟨0x0000000000000000, 0x0000000000000001⟩ ⟨0x0000000000000000, 0x8000000000000000⟩)) =
      some ⟨0, 0⟩ := by decide

/-- V-CMP-1. -/
theorem test_leu_1 :
    resultOf (exec .leu
      (busy (encode .leu) ⟨0x0000000000000000, 0x0000000000000000⟩ ⟨0x0000000000000000, 0x0000000000000000⟩)) =
      some ⟨0, 1⟩ := by decide

/-- V-CMP-4. -/
theorem test_leu_2 :
    resultOf (exec .leu
      (busy (encode .leu) ⟨0xffffffffffffffff, 0xffffffffffffffff⟩ ⟨0x0000000000000000, 0x0000000000000000⟩)) =
      some ⟨0, 0⟩ := by decide

/-- V-CMP-1. -/
theorem test_geu_1 :
    resultOf (exec .geu
      (busy (encode .geu) ⟨0x0000000000000000, 0x0000000000000000⟩ ⟨0x0000000000000000, 0x0000000000000000⟩)) =
      some ⟨0, 1⟩ := by decide

/-- V-CMP-2. -/
theorem test_geu_2 :
    resultOf (exec .geu
      (busy (encode .geu) ⟨0x0000000000000000, 0x0000000000000000⟩ ⟨0x0000000000000000, 0x0000000000000001⟩)) =
      some ⟨0, 0⟩ := by decide

/-- V-CMP-13. -/
theorem test_lts_1 :
    resultOf (exec .lts
      (busy (encode .lts) ⟨0x0000000000000000, 0x8000000000000000⟩ ⟨0x0000000000000000, 0x0000000000000001⟩)) =
      some ⟨0, 1⟩ := by decide

/-- V-CMP-17. -/
theorem test_lts_2 :
    resultOf (exec .lts
      (busy (encode .lts) ⟨0xffffffffffffffff, 0x8000000000000000⟩ ⟨0xffffffffffffffff, 0x0000000000000000⟩)) =
      some ⟨0, 1⟩ := by decide

/-- V-CMP-14. -/
theorem test_gts_1 :
    resultOf (exec .gts
      (busy (encode .gts) ⟨0x0000000000000000, 0x0000000000000001⟩ ⟨0x0000000000000000, 0x8000000000000000⟩)) =
      some ⟨0, 1⟩ := by decide

/-- V-CMP-11. -/
theorem test_gts_2 :
    resultOf (exec .gts
      (busy (encode .gts) ⟨0x0000000000000000, 0xffffffffffffffff⟩ ⟨0x0000000000000001, 0x0000000000000000⟩)) =
      some ⟨0, 0⟩ := by decide

/-- V-CMP-8. -/
theorem test_les_1 :
    resultOf (exec .les
      (busy (encode .les) ⟨0x8000000000000000, 0x0000000000000000⟩ ⟨0x8000000000000000, 0x0000000000000000⟩)) =
      some ⟨0, 1⟩ := by decide

/-- V-CMP-14. -/
theorem test_les_2 :
    resultOf (exec .les
      (busy (encode .les) ⟨0x0000000000000000, 0x0000000000000001⟩ ⟨0x0000000000000000, 0x8000000000000000⟩)) =
      some ⟨0, 0⟩ := by decide

/-- V-CMP-13. -/
theorem test_ges_1 :
    resultOf (exec .ges
      (busy (encode .ges) ⟨0x0000000000000000, 0x8000000000000000⟩ ⟨0x0000000000000000, 0x0000000000000001⟩)) =
      some ⟨0, 0⟩ := by decide

/-- V-CMP-20. -/
theorem test_ges_2 :
    resultOf (exec .ges
      (busy (encode .ges) ⟨0x7fffffffffffffff, 0x0000000000000000⟩ ⟨0x8000000000000000, 0x0000000000000000⟩)) =
      some ⟨0, 1⟩ := by decide

/-- V-BIT-1. -/
theorem test_and :
    resultOf (exec .and
      (busy (encode .and) ⟨0xff00ff00ff00ff00, 0x0123456789abcdef⟩ ⟨0x0ff00ff00ff00ff0, 0xffffffff00000000⟩)) =
      some ⟨0x0f000f000f000f00, 0x0123456700000000⟩ := by decide

/-- V-BIT-2. -/
theorem test_or :
    resultOf (exec .or
      (busy (encode .or) ⟨0xff00ff00ff00ff00, 0x0123456789abcdef⟩ ⟨0x0ff00ff00ff00ff0, 0xffffffff00000000⟩)) =
      some ⟨0xfff0fff0fff0fff0, 0xffffffff89abcdef⟩ := by decide

/-- V-BIT-3. -/
theorem test_xor :
    resultOf (exec .xor
      (busy (encode .xor) ⟨0xff00ff00ff00ff00, 0x0123456789abcdef⟩ ⟨0x0ff00ff00ff00ff0, 0xffffffff00000000⟩)) =
      some ⟨0xf0f0f0f0f0f0f0f0, 0xfedcba9889abcdef⟩ := by decide

/-- V-BIT-18. -/
theorem test_not :
    resultOf (exec .not
      (busy (encode .not) ⟨0x0000000000000000, 0x00000000000000ff⟩ ⟨0xffffffffffffffff, 0xffffffffffffffff⟩)) =
      some ⟨0xffffffffffffffff, 0xffffffffffffff00⟩ := by decide

/-- V-SHIFT-109 to V-SHIFT-114: the amounts 0, 1, 63, 64, 65, 127. -/
theorem test_shl :
    [0, 1, 63, 64, 65, 127].map (fun n => resultOf (exec (.shl n)
      (busy (encode (.shl n)) ⟨0x8000000000000001, 0x8000000000000001⟩ Value.zero))) =
      [some ⟨0x8000000000000001, 0x8000000000000001⟩,
        some ⟨0x0000000000000003, 0x0000000000000002⟩,
        some ⟨0xc000000000000000, 0x8000000000000000⟩,
        some ⟨0x8000000000000001, 0x0000000000000000⟩,
        some ⟨0x0000000000000002, 0x0000000000000000⟩,
        some ⟨0x8000000000000000, 0x0000000000000000⟩] := by decide

/-- V-SHIFT-115 to V-SHIFT-120: the amounts 0, 1, 63, 64, 65, 127. -/
theorem test_shrl :
    [0, 1, 63, 64, 65, 127].map (fun n => resultOf (exec (.shrl n)
      (busy (encode (.shrl n)) ⟨0x8000000000000001, 0x8000000000000001⟩ Value.zero))) =
      [some ⟨0x8000000000000001, 0x8000000000000001⟩,
        some ⟨0x4000000000000000, 0xc000000000000000⟩,
        some ⟨0x0000000000000001, 0x0000000000000003⟩,
        some ⟨0x0000000000000000, 0x8000000000000001⟩,
        some ⟨0x0000000000000000, 0x4000000000000000⟩,
        some ⟨0x0000000000000000, 0x0000000000000001⟩] := by decide

/-- V-SHIFT-121 to V-SHIFT-126: the amounts 0, 1, 63, 64, 65, 127. -/
theorem test_shra :
    [0, 1, 63, 64, 65, 127].map (fun n => resultOf (exec (.shra n)
      (busy (encode (.shra n)) ⟨0x8000000000000001, 0x8000000000000001⟩ Value.zero))) =
      [some ⟨0x8000000000000001, 0x8000000000000001⟩,
        some ⟨0xc000000000000000, 0xc000000000000000⟩,
        some ⟨0xffffffffffffffff, 0x0000000000000003⟩,
        some ⟨0xffffffffffffffff, 0x8000000000000001⟩,
        some ⟨0xffffffffffffffff, 0xc000000000000000⟩,
        some ⟨0xffffffffffffffff, 0xffffffffffffffff⟩] := by decide

/-- V-ADD-2. -/
theorem test_add_1 :
    resultOf (exec .add
      (busy (encode .add) ⟨0x0000000000000000, 0xffffffffffffffff⟩ ⟨0x0000000000000000, 0x0000000000000001⟩)) =
      some ⟨0x0000000000000001, 0x0000000000000000⟩ := by decide

/-- V-ADD-8. -/
theorem test_add_2 :
    resultOf (exec .add
      (busy (encode .add) ⟨0x7fffffffffffffff, 0xffffffffffffffff⟩ ⟨0x0000000000000000, 0x0000000000000001⟩)) =
      some ⟨0x8000000000000000, 0x0000000000000000⟩ := by decide

/-- V-ADD-17. -/
theorem test_sub_1 :
    resultOf (exec .sub
      (busy (encode .sub) ⟨0x0000000000000001, 0x0000000000000000⟩ ⟨0x0000000000000000, 0x0000000000000001⟩)) =
      some ⟨0x0000000000000000, 0xffffffffffffffff⟩ := by decide

/-- V-ADD-19. -/
theorem test_sub_2 :
    resultOf (exec .sub
      (busy (encode .sub) ⟨0x0000000000000000, 0x0000000000000003⟩ ⟨0x8000000000000000, 0x0000000000000000⟩)) =
      some ⟨0x8000000000000000, 0x0000000000000003⟩ := by decide

/-- V-ADD-27. -/
theorem test_neg_1 :
    resultOf (exec .neg
      (busy (encode .neg) ⟨0x8000000000000000, 0x0000000000000000⟩ ⟨0x0000000000000000, 0x0000000000000000⟩)) =
      some ⟨0x8000000000000000, 0x0000000000000000⟩ := by decide

/-- V-ADD-29. -/
theorem test_neg_2 :
    resultOf (exec .neg
      (busy (encode .neg) ⟨0x0000000000000001, 0x0000000000000000⟩ ⟨0x0000000000000000, 0x0000000000000000⟩)) =
      some ⟨0xffffffffffffffff, 0x0000000000000000⟩ := by decide

/-- V-MUL-7. -/
theorem test_mul64u_1 :
    resultOf (exec .mul64u
      (busy (encode .mul64u) ⟨0x0000000000000000, 0xffffffffffffffff⟩ ⟨0x0000000000000000, 0xffffffffffffffff⟩)) =
      some ⟨0xfffffffffffffffe, 0x0000000000000001⟩ := by decide

/-- V-MUL-9. -/
theorem test_mul64u_2 :
    resultOf (exec .mul64u
      (busy (encode .mul64u) ⟨0x0000000000000000, 0xffffffff00000001⟩ ⟨0x0000000000000000, 0x00000001ffffffff⟩)) =
      some ⟨0x00000001fffffffd, 0x00000002ffffffff⟩ := by decide

/-- V-MUL-12. -/
theorem test_mul64s_1 :
    resultOf (exec .mul64s
      (busy (encode .mul64s) ⟨0x0000000000000000, 0xffffffffffffffff⟩ ⟨0x0000000000000000, 0xffffffffffffffff⟩)) =
      some ⟨0x0000000000000000, 0x0000000000000001⟩ := by decide

/-- V-MUL-24. -/
theorem test_mul64s_2 :
    resultOf (exec .mul64s
      (busy (encode .mul64s) ⟨0x0000000000000000, 0xffffffffffffffff⟩ ⟨0xffffffffffffffff, 0x0000000000000002⟩)) =
      some ⟨0xffffffffffffffff, 0xfffffffffffffffe⟩ := by decide

/-- V-MUL-25. -/
theorem test_mulu_1 :
    resultOf (exec .mulu
      (busy (encode .mulu) ⟨0x4b3b4ca85a86c47a, 0x098a224000000000⟩ ⟨0x0000000000000000, 0x000000000000000a⟩)) =
      some ⟨0xf050fe938943acc4, 0x5f65568000000000⟩ := by decide

/-- V-MUL-33. -/
theorem test_mulu_2 :
    resultOf (exec .mulu
      (busy (encode .mulu) ⟨0x0000000000000002, 0x0000000000000003⟩ ⟨0x0000000000000005, 0x0000000000000007⟩)) =
      some ⟨0x000000000000001d, 0x0000000000000015⟩ := by decide

/-- V-MUL-43. -/
theorem test_muls_1 :
    resultOf (exec .muls
      (busy (encode .muls) ⟨0xffffffffffffffff, 0xffffffffffffffff⟩ ⟨0x8000000000000000, 0x0000000000000000⟩)) =
      some ⟨0x8000000000000000, 0x0000000000000000⟩ := by decide

/-- V-MUL-51. -/
theorem test_muls_2 :
    resultOf (exec .muls
      (busy (encode .muls) ⟨0xffffffffffffffff, 0x7538dcfb76180000⟩ ⟨0x0000000000000000, 0x8ac7230489e80000⟩)) =
      some ⟨0xb4c4b357a5793b85, 0xf675ddc000000000⟩ := by decide

set_option maxRecDepth 20000 in
/-- V-DIV-14. -/
theorem test_divu_1 :
    resultOf (exec .divu
      (busy (encode .divu) ⟨0xffffffffffffffff, 0xffffffffffffffff⟩ ⟨0x0000000000000000, 0x0000000000000003⟩)) =
      some ⟨0x5555555555555555, 0x5555555555555555⟩ := by decide

set_option maxRecDepth 20000 in
/-- V-DIV-22. -/
theorem test_divu_2 :
    resultOf (exec .divu
      (busy (encode .divu) ⟨0xfedcba9876543210, 0x0123456789abcdef⟩ ⟨0x0000000000012345, 0x6789abcdef012345⟩)) =
      some ⟨0x0000000000000000, 0x0000e00000000000⟩ := by decide

/-- V-DIV-13. -/
theorem test_remu_1 :
    resultOf (exec .remu
      (busy (encode .remu) ⟨0xffffffffffffffff, 0xffffffffffffffff⟩ ⟨0x8000000000000000, 0x0000000000000001⟩)) =
      some ⟨0x7fffffffffffffff, 0xfffffffffffffffe⟩ := by decide

set_option maxRecDepth 20000 in
/-- V-DIV-23. -/
theorem test_remu_2 :
    resultOf (exec .remu
      (busy (encode .remu) ⟨0xfedcba9876543210, 0x0123456789abcdef⟩ ⟨0x0000000000012345, 0x6789abcdef012345⟩)) =
      some ⟨0x00000000000000ef, 0x0246e56789abcdef⟩ := by decide

/-- V-DIV-33. -/
theorem test_divs_1 :
    resultOf (exec .divs
      (busy (encode .divs) ⟨0xffffffffffffffff, 0xfffffffffffffff9⟩ ⟨0x0000000000000000, 0x0000000000000002⟩)) =
      some ⟨0xffffffffffffffff, 0xfffffffffffffffd⟩ := by decide

set_option maxRecDepth 20000 in
/-- V-DIV-61. -/
theorem test_divs_2 :
    resultOf (exec .divs
      (busy (encode .divs) ⟨0x8000000000000000, 0x0000000000000000⟩ ⟨0xffffffffffffffff, 0xffffffffffffffff⟩)) =
      some ⟨0x8000000000000000, 0x0000000000000000⟩ := by decide

/-- V-DIV-37. -/
theorem test_rems_1 :
    resultOf (exec .rems
      (busy (encode .rems) ⟨0xffffffffffffffff, 0xfffffffffffffff9⟩ ⟨0x0000000000000000, 0x0000000000000002⟩)) =
      some ⟨0xffffffffffffffff, 0xffffffffffffffff⟩ := by decide

set_option maxRecDepth 20000 in
/-- V-DIV-72. -/
theorem test_rems_2 :
    resultOf (exec .rems
      (busy (encode .rems) ⟨0x8000000000000000, 0x0000000000000000⟩ ⟨0x0000000000000000, 0x0000000000000003⟩)) =
      some ⟨0xffffffffffffffff, 0xfffffffffffffffe⟩ := by decide

/-- V-DIV-65: `MIN / 2` under the other value of the parameter. -/
theorem test_divs_literal_zero :
    resultOf (exec .divs { busy (encode .divs) Value.min ⟨0, 2⟩ with config := ⟨.literalZero⟩ }) =
      some Value.zero := by decide

/-- V-DIV-29, V-DIV-30, V-DIV-31, V-DIV-56, V-DIV-57: a zero divisor, `0 / 0` too. -/
theorem test_division_by_zero_faults :
    faultOf (step (busy 0x0070#16 ⟨0, 0x64⟩ Value.zero)) = some .divisionByZero ∧
      faultOf (step (busy 0x0071#16 ⟨0, 0x64⟩ Value.zero)) = some .divisionByZero ∧
      faultOf (step (busy 0x0070#16 Value.zero Value.zero)) = some .divisionByZero ∧
      faultOf (step (busy 0x0072#16 ⟨0, 0x64⟩ Value.zero)) = some .divisionByZero ∧
      faultOf (step (busy 0x0073#16 Value.min Value.zero)) = some .divisionByZero := by decide

/-! ## Steps (V-SEQ) -/

/-- V-SEQ-1: ACCEPT loads the latches. -/
theorem test_step_accept :
    (match step (offering 0x0050#16 Value.max Value.one) with
      | .next t => decide (t.phase = .busy ∧ t.cwQ = 0x0050#16 ∧ t.aQ = Value.max ∧ t.bQ = Value.one)
      | _ => false) = true := by decide

/-- V-SEQ-2: EXECUTE latches `MIN` and offers it. -/
theorem test_step_execute :
    (match step (busy 0x0050#16 Value.max Value.one) with
      | .next t => decide (t.phase = .resp ∧ t.rspValid = true ∧ t.rspR = some Value.min)
      | _ => false) = true := by decide

/-- V-SEQ-3: DELIVER hands `MIN` to the host. -/
theorem test_step_deliver :
    (match step (responding Value.min) with
      | .next t => decide (t.phase = .idle ∧ t.responses = [some Value.min])
      | _ => false) = true := by decide

/-- V-SEQ-4 and V-SEQ-10: a reserved word is refused, before a zero divisor is looked at. -/
theorem test_step_refuses_reserved :
    refusalOf (step (offering 0x0150#16 Value.max Value.one)) = some (.reservedEncoding 0x0150#16) ∧
      refusalOf (step (offering 0x0170#16 ⟨0, 100⟩ Value.zero)) =
        some (.reservedEncoding 0x0170#16) := by decide

/-- V-SEQ-5: a legal division word is accepted whatever its divisor. -/
theorem test_step_accepts_zero_divisor :
    phaseOf (step (offering 0x0070#16 ⟨0, 100⟩ Value.zero)) = some .busy := by decide

/-- V-SEQ-7: reset abandons the command in flight, a division by zero too. -/
theorem test_step_reset_in_busy :
    (match step (underReset (busy 0x0070#16 ⟨0, 100⟩ Value.zero)) with
      | .next t => decide (t.phase = .idle ∧ t.responses = [none])
      | _ => false) = true := by decide

/-- V-SEQ-8: reset wins over a delivery in the same step. -/
theorem test_step_reset_in_resp :
    (match step (underReset (responding Value.min)) with
      | .next t => decide (t.phase = .idle ∧ t.responses = [none])
      | _ => false) = true := by decide

/-- V-SEQ-9: in RESP an offer waits; the response is not taken here either. -/
theorem test_step_offer_waits_in_resp :
    (match step { responding Value.min with
        cmdPort := some ⟨0x0050#16, Value.one, Value.one⟩
        wires := { rst := false, present := false, rspReady := false } } with
      | .next t => decide (t.phase = .resp ∧ t.cmdPort = some ⟨0x0050#16, Value.one, Value.one⟩ ∧
          t.responses = [])
      | _ => false) = true := by decide

/-- 30_encoding.md R59: the host substitutes `$1` once response 1 is there, and offers nothing before. -/
theorem test_offer_substitutes_response :
    ({ State.reset with
        responses := [some Value.max]
        stream := [Command.line .neg (.response 1) (.literal Value.zero)] } : State).nextOffer =
        some ⟨0x0052#16, Value.max, Value.zero⟩ ∧
      ({ State.reset with
        stream := [Command.line .neg (.response 1) (.literal Value.zero)] } : State).nextOffer = none := by
  decide

/-- 10_state.md R38: the host raises `cmd_valid`, and cannot withdraw the offer before its transfer. -/
theorem test_offer_stands :
    ({ State.reset with
        wires := { rst := false, present := true, rspReady := false }
        stream := [Command.line .add (.literal Value.one) (.literal Value.one)] } : State).advance.cmdPort =
        some ⟨0x0050#16, Value.one, Value.one⟩ ∧
      ({ busy 0x0050#16 Value.max Value.one with
        cmdPort := some ⟨0x0050#16, Value.one, Value.one⟩
        wires := { rst := false, present := true, rspReady := false }
        schedule := [{ rst := false, present := false, rspReady := false }] } : State).advance.cmdPort =
        some ⟨0x0050#16, Value.one, Value.one⟩ := by decide

/-- Program P7 starts from the launch state of 70_reset_and_hazards.md R230, also after an earlier DELIVER: a new
record numbers its commands from 1. -/
theorem test_launch_program_with_reserved_word :
    streamWellFormedFrom
        (({ State.reset with responses := [some Value.max] } : State).launch
          [Command.line .add (.literal ⟨0, 1⟩) (.literal ⟨0, 2⟩),
            ⟨0x0150#16, .literal ⟨0, 1⟩, .literal ⟨0, 2⟩⟩]).streamPosition
        [Command.line .add (.literal ⟨0, 1⟩) (.literal ⟨0, 2⟩),
          ⟨0x0150#16, .literal ⟨0, 1⟩, .literal ⟨0, 2⟩⟩] = true := by decide

/-- 10_state.md R36: after reset, with no host, the block waits in IDLE. -/
theorem test_step_waits_after_reset : phaseOf (step State.reset) = some .idle := by decide

/-- The host's schedule sets the wires of the next step. -/
theorem test_step_advances_wires :
    (match step { State.reset with schedule := [{ rst := true, present := false, rspReady := false }] } with
      | .next t => decide (t.wires.rst = true ∧ t.cmdReady = false ∧ t.schedule = [])
      | _ => false) = true := by decide

/-- A word placed in flight is executed by the next step, the divisions too (log 13). -/
theorem test_with_fetch_word_runs :
    phaseOf (step (State.reset.withFetchWord 16 0x0050)) = some .resp ∧
      phaseOf (step (State.reset.withFetchWord 16 0x7F42)) = some .resp ∧
      phaseOf (step (State.reset.withFetchWord 16 0x0073)) = some .resp ∧
      refusalOf (step (State.reset.withFetchWord 16 0x0150)) = some (.reservedEncoding 0x0150#16) := by
  decide

/-! ## Witnesses: a state and operands that meet the hypotheses of each statement that has some -/

theorem test_witness_EncodeInvertsDecode : decode 0x4040#16 = .ok (.shl 64) := by decide

theorem test_witness_OutputsFollowPhase :
    (underReset (responding Value.min)).wires.rst = true ∧ (underReset (responding Value.min)).phase = .resp ∧
      (responding Value.min).wires.rst = false ∧ State.reset.phase ≠ .resp := by decide

/-- A legal offer, a reserved offer, and no offer. -/
theorem test_witness_AcceptSamplesOfferedCommand :
    (offering 0x0050#16 Value.max Value.one).wires.rst = false ∧
      (offering 0x0050#16 Value.max Value.one).phase = .idle ∧
      (offering 0x0050#16 Value.max Value.one).cmdPort = some ⟨0x0050#16, Value.max, Value.one⟩ ∧
      decode 0x0050#16 = .ok .add ∧
      (offering 0x8050#16 Value.max Value.one).cmdPort = some ⟨0x8050#16, Value.max, Value.one⟩ ∧
      decode 0x8050#16 = .error .zBitSet ∧
      State.reset.wires.rst = false ∧ State.reset.phase = .idle ∧ State.reset.cmdPort = none := by decide

/-- An instruction that completes and one that faults. No instruction refuses, so the third clause says what a step
would do if one did. -/
theorem test_witness_StepRunsInstructionInFlight :
    (busy 0x0050#16 Value.max Value.one).wires.rst = false ∧
      (busy 0x0050#16 Value.max Value.one).phase = .busy ∧
      decode (busy 0x0050#16 Value.max Value.one).cwQ = .ok .add ∧
      resultOf (exec .add (busy 0x0050#16 Value.max Value.one)) = some Value.min ∧
      decode (busy 0x0070#16 Value.one Value.zero).cwQ = .ok .divu ∧
      faultOf (exec .divu (busy 0x0070#16 Value.one Value.zero)) = some .divisionByZero := by decide

theorem test_witness_DeliverHandsOverResult :
    (responding Value.min).wires.rst = false ∧ (responding Value.min).phase = .resp ∧
      (responding Value.min).wires.rspReady = true := by decide

theorem test_witness_BlockWaitsForHost :
    State.reset.wires.rst = false ∧ State.reset.phase = .idle ∧ State.reset.cmdPort = none ∧
      ({ State.reset with phase := .resp } : State).wires.rspReady = false := by decide

theorem test_witness_ResetAbandonsCommandInFlight :
    (underReset (offering 0x0050#16 Value.max Value.one)).wires.rst = true ∧
      (underReset (offering 0x0050#16 Value.max Value.one)).cmdPort = some ⟨0x0050#16, Value.max, Value.one⟩ ∧
    (underReset (busy 0x0050#16 Value.max Value.one)).wires.rst = true ∧
      (underReset (busy 0x0050#16 Value.max Value.one)).phase = .busy ∧
      (underReset State.reset).phase = .idle := by decide

theorem test_witness_ResetThenRefusalThenFault :
    (underReset (offering 0x0150#16 Value.one Value.zero)).wires.rst = true ∧
      (offering 0x0170#16 Value.one Value.zero).cmdPort = some ⟨0x0170#16, Value.one, Value.zero⟩ ∧
      (offering 0x0170#16 Value.one Value.zero).phase = .idle ∧ legalWord 0x0170#16 = false ∧
      (offering 0x0070#16 Value.one Value.zero).cmdPort = some ⟨0x0070#16, Value.one, Value.zero⟩ ∧
      legalWord 0x0070#16 = true ∧
      (busy 0x0070#16 Value.one Value.zero).phase = .busy ∧
      decode (busy 0x0070#16 Value.one Value.zero).cwQ = .ok .divu ∧ isDivision .divu = true ∧
      (busy 0x0070#16 Value.one Value.zero).bQ = Value.zero := by decide

/-- A zero divisor, and the boundary: a divisor whose low word only is zero, one whose high word only is. -/
theorem test_witness_DivisionNeedsNonzeroDivisor :
    isDivision .rems = true ∧
      (busy 0x0073#16 Value.one Value.zero).bQ.high = 0 ∧ (busy 0x0073#16 Value.one Value.zero).bQ.low = 0 ∧
      phaseOf (exec .rems (busy 0x0073#16 Value.one ⟨1, 0⟩)) = some .resp ∧
      phaseOf (exec .rems (busy 0x0073#16 Value.one ⟨0, 1⟩)) = some .resp := by decide

theorem test_witness_ExecChangesOnlyResultAndPhase :
    ∃ t, exec .add (busy 0x0050#16 Value.max Value.one) = .next t ∧ isDivision .add = false :=
  ⟨_, rfl, rfl⟩

/-- Two states that agree on the command only. -/
theorem test_witness_ResponseDependsOnCommandAlone :
    (busy 0x0050#16 Value.max Value.one).aQ =
        ({ busy 0x0051#16 Value.max Value.one with rQ := Value.zero, phase := .idle } : State).aQ ∧
      (busy 0x0050#16 Value.max Value.one).bQ =
        ({ busy 0x0051#16 Value.max Value.one with rQ := Value.zero, phase := .idle } : State).bQ ∧
      (busy 0x0050#16 Value.max Value.one).config =
        ({ busy 0x0051#16 Value.max Value.one with rQ := Value.zero, phase := .idle } : State).config ∧
      phaseOf (exec .add (busy 0x0050#16 Value.max Value.one)) = some .resp := by decide

theorem test_witness_UnreadOperandPartsIgnored :
    Instr.neg ∈ [Instr.zext64, .sext64, .not, .neg] ∧
      Instr.shra 64 ∈ [Instr.shl 64, .shrl 64, .shra 64] ∧
      Instr.sext64 ∈ [Instr.zext64, .sext64, .mul64u, .mul64s] ∧
      Instr.mul64s ∈ [Instr.mul64u, .mul64s] := by decide

/-- The invariant in BUSY with a command to come, and steps from there and from IDLE, RESP and reset. -/
theorem test_witness_StepKeepsRunInvariant :
    RunInv { busy 0x0050#16 Value.max Value.one with
        stream := [Command.line .neg (.response 1) (.literal Value.zero)] } ∧
      phaseOf (step { busy 0x0050#16 Value.max Value.one with
        stream := [Command.line .neg (.response 1) (.literal Value.zero)] }) = some .resp := by
  refine ⟨⟨fun _ => ?_, fun o h => ?_, ?_, ?_⟩, ?_⟩
  case refine_2 => cases h
  all_goals decide

theorem test_witness_WellFormedProgramNeverRefused :
    RunInv (offering 0x0050#16 Value.max Value.one) := by
  refine ⟨fun h => ?_, fun o h => ?_, ?_, ?_⟩
  · cases h
  · cases h; decide
  · decide
  · decide

theorem test_witness_ParameterFixedForRun : ∃ t, step State.reset = .next t := ⟨_, rfl⟩

/-- A step that keeps the responses, one that delivers, one that abandons; one that keeps an offer and one that
transfers it. -/
theorem test_witness_CommandsNeitherLostNorDuplicated :
    phaseOf (step State.reset) = some .idle ∧ phaseOf (step (responding Value.min)) = some .idle ∧
      phaseOf (step (underReset (busy 0x0050#16 Value.max Value.one))) = some .idle ∧
      phaseOf (step (underReset (offering 0x0050#16 Value.max Value.one))) = some .idle ∧
      phaseOf (step (offering 0x0050#16 Value.max Value.one)) = some .busy := by decide

/-- A command without a precondition, and a division. -/
theorem test_witness_TransactionCompletesInThreeSteps :
    (offering 0x0072#16 Value.min Value.one).phase = .idle ∧
      (offering 0x0072#16 Value.min Value.one).wires.rst = false ∧
      (offering 0x0072#16 Value.min Value.one).wires.rspReady = true ∧
      (offering 0x0072#16 Value.min Value.one).schedule = [] ∧
      (offering 0x0072#16 Value.min Value.one).cmdPort = some ⟨0x0072#16, Value.min, Value.one⟩ ∧
      decode 0x0072#16 = .ok .divs ∧ isDivision .divs = true ∧ Value.one ≠ Value.zero ∧
      isDivision .add = false := by decide

theorem test_witness_ReadingsDifferBySign :
    Value.min.isNeg = true ∧ Value.minusOne.isNeg = true ∧ Value.max.isNeg = false := by decide

/-- Each truth value of each comparison: a tie on the high words decided by the low words' signs, both ways, and
equal operands. -/
theorem test_witness_SignedComparisonsBreakTiesBySignedLowWord :
    ((0#64).toInt < (0#64).toInt ∨
        (0#64 = 0#64 ∧ (0x8000000000000000#64).toInt < (0x7fffffffffffffff#64).toInt)) ∧
      ¬((0#64).toInt < (0#64).toInt ∨
        (0#64 = 0#64 ∧ (0x7fffffffffffffff#64).toInt < (0x8000000000000000#64).toInt)) := by decide

/-- The three ways in which the order is numeric or opposite: high words differ; a tie with equal top bits of the
low words; a tie with different ones (V-CMP-11, V-CMP-19, V-CMP-13). -/
theorem test_witness_SignedOrderLeavesNumericOrderOnTies :
    (⟨0, 0xffffffffffffffff⟩ : Value).high ≠ (⟨1, 0⟩ : Value).high ∧
      (0x8000000000000000#64).getLsbD 63 = (0x8000000000000001#64).getLsbD 63 ∧
      (0x8000000000000000#64).getLsbD 63 ≠ (0x0000000000000001#64).getLsbD 63 := by decide

/-- Three values in a row in both orders. -/
theorem test_witness_OrdersAreStrictAndTotal :
    ltu128 Value.zero Value.one = true ∧ ltu128 Value.one Value.umax = true ∧
      lts128 Value.min Value.zero = true ∧ lts128 Value.zero Value.max = true ∧
      lts128 Value.min Value.max = true := by decide

theorem test_witness_BitwiseWordsAreIndependent :
    Instr.xor ∈ [Instr.and, .or, .xor, .not] ∧
      (busy 0x0032#16 ⟨5, 1⟩ ⟨6, 2⟩).aQ.high = (busy 0x0032#16 ⟨5, 3⟩ ⟨6, 4⟩).aQ.high ∧
      (busy 0x0032#16 ⟨5, 1⟩ ⟨6, 2⟩).bQ.high = (busy 0x0032#16 ⟨5, 3⟩ ⟨6, 4⟩).bQ.high ∧
      (busy 0x0032#16 ⟨5, 1⟩ ⟨6, 2⟩).aQ.low = (busy 0x0032#16 ⟨7, 1⟩ ⟨8, 2⟩).aQ.low ∧
      (busy 0x0032#16 ⟨5, 1⟩ ⟨6, 2⟩).bQ.low = (busy 0x0032#16 ⟨7, 1⟩ ⟨8, 2⟩).bQ.low := by decide

/-- Amounts at the ends of their range, and a value of each sign. -/
theorem test_witness_ShiftsComposeAndClear :
    (0 : Nat) ≤ 127 ∧ (127 : Nat) ≤ 127 ∧ (63 : Nat) + 64 ≤ 127 ∧ Value.max.isNeg = false ∧
      Value.min.isNeg = true := by decide

/-- Each branch of the three shifts at its boundary amounts, for a value of each sign. -/
theorem test_witness_shift_cases :
    ((0 : BitVec 7).toNat = 0 ∧ (1 : BitVec 7).toNat = 1 ∧ (63 : BitVec 7).toNat = 63 ∧
      (64 : BitVec 7).toNat = 64 ∧ (65 : BitVec 7).toNat = 65 ∧ (127 : BitVec 7).toNat = 127) ∧
      (busy 0x0042#16 Value.min Value.zero).aQ.isNeg = true ∧
      (busy 0x0042#16 Value.max Value.zero).aQ.isNeg = false := by decide

theorem test_witness_NegIsTwosComplement :
    (busy 0x0052#16 Value.min Value.zero).aQ = Value.min ∧
      (busy 0x0052#16 Value.max Value.zero).aQ ≠ Value.min := by decide

theorem test_witness_MulsIsWrappedSignedProduct :
    (busy 0x0063#16 Value.min Value.minusOne).bQ = Value.minusOne ∧
      (busy 0x0063#16 Value.minusOne Value.min).aQ = Value.minusOne := by decide

/-- The ends of the chain's range. -/
theorem test_witness_PowersOfTenAndMinusOne : (0 : Nat) < 38 ∧ (37 : Nat) < 38 := by decide

theorem test_witness_DivisionEngineIsExact : Value.one ≠ Value.zero ∧ Value.umax ≠ Value.zero := by decide

theorem test_witness_DivuIsFloorQuotient :
    (busy 0x0070#16 Value.umax Value.one).bQ ≠ Value.zero := by decide

theorem test_witness_RemuIsUnsignedRemainder :
    (busy 0x0071#16 Value.umax ⟨1, 0⟩).bQ ≠ Value.zero := by decide

theorem test_witness_Abs128IsMagnitude : Value.min.isNeg = true ∧ Value.zero.isNeg = false := by decide

/-- Each branch of DIVS: `(MIN, MIN)`, `(x, MIN)`, `(MIN, x)` under either value of the parameter, and the rest. -/
theorem test_witness_DivsTruncatesTowardZero :
    (busy 0x0072#16 Value.min Value.min).bQ ≠ Value.zero ∧
      ((busy 0x0072#16 Value.max Value.min).bQ = Value.min ∧
        (busy 0x0072#16 Value.max Value.min).aQ ≠ Value.min) ∧
      ((busy 0x0072#16 Value.min Value.minusOne).aQ = Value.min ∧
        (busy 0x0072#16 Value.min Value.minusOne).bQ ≠ Value.min ∧
        (busy 0x0072#16 Value.min Value.minusOne).bQ ≠ Value.zero) ∧
      (busy 0x0072#16 Value.min Value.minusOne).config.divsMinDividend = .truncating ∧
      ({ busy 0x0072#16 Value.min Value.minusOne with config := ⟨.literalZero⟩ } :
        State).config.divsMinDividend = .literalZero ∧
      (busy 0x0072#16 Value.max Value.minusOne).aQ ≠ Value.min := by decide

theorem test_witness_RemsHasSignOfDividend :
    (busy 0x0073#16 Value.max Value.min).bQ ≠ Value.zero ∧
      (busy 0x0073#16 Value.max Value.min).bQ = Value.min ∧
      (busy 0x0073#16 Value.max Value.min).aQ ≠ Value.min := by decide

/-- Inside and outside the contested band. -/
theorem test_witness_QuotientTimesDivisorPlusRemainder :
    Value.one ≠ Value.zero ∧ Value.one ≠ Value.min ∧ Value.min ≠ Value.zero := by decide

theorem test_witness_DivisionEdgeCases :
    Value.max ≠ Value.min ∧ Value.minusOne ≠ Value.zero ∧ Value.minusOne ≠ Value.min ∧
      0 < Value.max.S := by decide

/-- A divisor with bit 127 set, the worst case, and equal operands. -/
theorem test_witness_DivisionLoopsAreBounded :
    Value.min ≠ Value.zero ∧ Value.min.U ≤ Value.umax.U ∧ Value.one ≠ Value.zero ∧
      Value.one.U ≤ Value.umax.U ∧ Value.one.U ≤ Value.one.U ∧ Value.zero.U < Value.one.U := by decide

/-- A run ended at once: nothing to present, nothing in flight. -/
theorem test_run_ended_without_commands : RunEnded State.reset State.reset [] :=
  ⟨⟨0, rfl, fun j h => absurd h (Nat.not_lt_zero j)⟩, rfl, rfl, rfl, rfl, rfl⟩

/-- Each way out of the contested band, and a pair in it. -/
theorem test_witness_ParameterDecidesOnlyMinDividend :
    Instr.rems ≠ Instr.divs ∧ (busy 0x0072#16 Value.max Value.one).aQ ≠ Value.min ∧
      (busy 0x0072#16 Value.min Value.min).bQ = Value.min ∧
      phaseOf (exec .divs (busy 0x0072#16 Value.min Value.min)) = some .resp ∧
      (busy 0x0072#16 Value.min Value.one).aQ = Value.min ∧
      (busy 0x0072#16 Value.min Value.one).bQ ≠ Value.min ∧
      (busy 0x0072#16 Value.min Value.one).bQ ≠ Value.zero := by decide

theorem test_witness_WorkingRegistersHoldEngineResult :
    (busy 0x0070#16 Value.umax Value.one).bQ ≠ Value.zero ∧
      (busy 0x0070#16 Value.umax Value.one).bQ.U < (busy 0x0070#16 Value.umax Value.one).aQ.U ∧
      phaseOf (exec .divu (busy 0x0070#16 Value.umax Value.one)) = some .resp := by decide

end Sys2Proof.Tests
end

section
/-!
Proofs of the statements on the state and its steps (10_state.md). First the rules of a step read forwards: what
`step` answers in IDLE and in RESP, where `step_eq_next` says what it can have answered.
-/

namespace Sys2Proof.Machine

variable {s t : State}

/-! With `rst` at 0: the step in IDLE and in RESP is the phase's own, then the host's part. -/

theorem step_of_idle (hr : s.wires.rst = false) (hp : s.phase = .idle) :
    step s = advanceNext s.idleStep := by
  simp [step, hr, hp]

theorem step_of_resp (hr : s.wires.rst = false) (hp : s.phase = .resp) :
    step s = .next s.respStep.advance := by
  simp [step, hr, hp]

/-- Without an offer the idle block waits. -/
theorem State.idleStep_of_none (h : s.cmdPort = none) : s.idleStep = .next s := by
  simp [State.idleStep, h]

/-- A reserved word on the port is refused. -/
theorem State.idleStep_of_error {o : Offer} {e : Reserved} (h : s.cmdPort = some o)
    (hd : decode o.cw = .error e) : s.idleStep = .refused (.reservedEncoding o.cw) := by
  simp [State.idleStep, h, hd]

/-- A legal word on the port is accepted. -/
theorem State.idleStep_of_ok {o : Offer} {i : Instr} (h : s.cmdPort = some o)
    (hd : decode o.cw = .ok i) : s.idleStep = .next (s.accept o) := by
  simp [State.idleStep, h, hd]

theorem State.respStep_of_ready (h : s.wires.rspReady = true) : s.respStep = s.deliver := by
  simp [State.respStep, h]

/-- Outside RESP no response is offered. -/
theorem State.rspR_of_phase_ne (h : s.phase ≠ .resp) : s.rspR = none := by
  simp [State.rspR, State.rspValid, h]

/-- A command word decodes to an instruction or is reserved for a reason. -/
theorem decode_eq_error_of_forall_ne_ok {cw : BitVec 16} (h : ∀ i, decode cw ≠ .ok i) :
    ∃ e, decode cw = .error e := by
  cases hd : decode cw with
  | error e => exact ⟨e, rfl⟩
  | ok i => exact absurd hd (h i)

/-- The response of an instruction reads the operand latches and the parameter only. A division completes in both
states or in neither, since its test is on `b_q`; every other command completes always. -/
theorem exec_response_congr {i : Instr} {s' : State} (ha : s.aQ = t.aQ) (hb : s.bQ = t.bQ)
    (hc : s.config = t.config) (h : exec i s = .next s') :
    ∃ t', exec i t = .next t' ∧ t'.rQ = s'.rQ := by
  cases i
  case divu | remu | divs | rems =>
    obtain ⟨hne, rfl⟩ := State.completeDivision_eq_next.mp h
    exact ⟨_, State.completeDivision_of_ne _ _ (hb ▸ hne), by simp [ha, hb, hc]⟩
  all_goals
    injection h with h
    subst h
    exact ⟨_, rfl, by simp [ha, hb]⟩

/-- Settles O16: case by case over the instructions, no result reads another field of the state. -/
theorem responseDependsOnCommandAlone : Obligations.ResponseDependsOnCommandAlone := by
  unfold Obligations.ResponseDependsOnCommandAlone
  intro i s t s' ha hb hc h
  exact exec_response_congr ha hb hc h

/-- Settles O7: by what stands on the command port and how its word decodes. -/
theorem acceptSamplesOfferedCommand : Obligations.AcceptSamplesOfferedCommand := by
  unfold Obligations.AcceptSamplesOfferedCommand
  intro s hr hp
  refine ⟨fun cw a b ho => ⟨fun hd => ?reserved, fun i hd => ?legal⟩, fun ho => ?noOffer⟩
  case reserved =>
    obtain ⟨e, he⟩ := decode_eq_error_of_forall_ne_ok hd
    rw [step_of_idle hr hp, State.idleStep_of_error ho he, advanceNext_refused]
  case legal =>
    refine ⟨(s.accept ⟨cw, a, b⟩).advance, ?_, by simp⟩
    rw [step_of_idle hr hp, State.idleStep_of_ok ho hd, advanceNext_next]
  case noOffer =>
    refine ⟨s.advance, ?_, by simpa using hp⟩
    rw [step_of_idle hr hp, State.idleStep_of_none ho, advanceNext_next]

/-- Settles O9: the step is DELIVER and then the host's part, which leaves the phase and the record. -/
theorem deliverHandsOverResult : Obligations.DeliverHandsOverResult := by
  unfold Obligations.DeliverHandsOverResult
  intro s hr hp hy
  refine ⟨s.deliver.advance, ?_, by simp, by simp, State.rspR_of_phase_ne (by simp)⟩
  rw [step_of_resp hr hp, State.respStep_of_ready hy]

end Sys2Proof.Machine
end

section
/-!
Proofs of the statements on the encoding (30_encoding.md). The decoder, `legalWord` and the prose of R55 all say of
a word that `Z` is 0, that its opcode byte is assigned and that it is a shift or `N` is 0; each is brought to the
fields of R50. The words are counted as R55 counts them: 26 commands that are no shift, and 3 shifts by any of 128
amounts.
-/

namespace Sys2Proof

/-- An opcode byte of R51: its family and function are assigned. -/
def assignedOpcode (opc : BitVec 8) : Bool := assignedFunction (opc.toNat / 16) (opc.toNat % 16)

/-- The 29 opcode bytes of R51, as R55 counts them. -/
def opcodeBytes : List Nat :=
  [0x10, 0x11, 0x20, 0x21, 0x22, 0x23, 0x24, 0x29, 0x2A, 0x2B, 0x2C, 0x30, 0x31, 0x32, 0x33,
    0x40, 0x41, 0x42, 0x50, 0x51, 0x52, 0x60, 0x61, 0x62, 0x63, 0x70, 0x71, 0x72, 0x73]

/-- The word with `Z = 0` and these two fields (R58). -/
def wordOfFields (f : BitVec 7 × BitVec 8) : BitVec 16 := 0#1 ++ f.1 ++ f.2

/-- The opcode bytes of the shifts, which take any amount. -/
def shiftOpcodes : Finset (BitVec 8) :=
  Finset.univ.filter fun opc => assignedOpcode opc = true ∧ opc.toNat / 16 = 4

/-- The opcode bytes of the commands that take no amount. -/
def plainOpcodes : Finset (BitVec 8) :=
  Finset.univ.filter fun opc => assignedOpcode opc = true ∧ opc.toNat / 16 ≠ 4

/-- The amount and opcode fields of the legal words. -/
def legalFields : Finset (BitVec 7 × BitVec 8) :=
  Finset.univ ×ˢ shiftOpcodes ∪ {0} ×ˢ plainOpcodes

/-! ## The fields of a word as numbers (R50) -/

theorem fieldOpc_toNat (cw : BitVec 16) : (fieldOpc cw).toNat = cw.toNat % 256 := by
  simp [fieldOpc]

theorem fieldN_toNat (cw : BitVec 16) : (fieldN cw).toNat = cw.toNat / 256 % 128 := by
  simp [fieldN, Nat.shiftRight_eq_div_pow]

theorem fieldFam_toNat (cw : BitVec 16) : (fieldFam cw).toNat = cw.toNat / 16 % 16 := by
  simp [fieldFam, Nat.shiftRight_eq_div_pow]

theorem fieldZ_toNat (cw : BitVec 16) : (fieldZ cw).toNat = cw.toNat / 32768 := by
  have := cw.isLt
  simp only [fieldZ, BitVec.extractLsb'_toNat, Nat.shiftRight_eq_div_pow]
  omega

theorem fieldZ_eq_zero_iff (cw : BitVec 16) : fieldZ cw = 0 ↔ cw.toNat / 32768 = 0 := by
  rw [BitVec.toNat_eq, fieldZ_toNat]
  rfl

theorem fieldN_eq_zero_iff (cw : BitVec 16) : fieldN cw = 0 ↔ cw.toNat / 256 % 128 = 0 := by
  rw [BitVec.toNat_eq, fieldN_toNat]
  rfl

theorem fieldFam_eq_four_iff (cw : BitVec 16) : fieldFam cw = 4 ↔ cw.toNat / 16 % 16 = 4 := by
  rw [BitVec.toNat_eq, fieldFam_toNat]
  rfl

theorem fieldZ_eq_zero_iff_getLsbD (cw : BitVec 16) : fieldZ cw = 0 ↔ cw.getLsbD 15 = false := by
  rw [fieldZ_eq_zero_iff, BitVec.getLsbD, Nat.testBit_eq_decide_div_mod_eq]
  have := cw.isLt
  simp only [decide_eq_false_iff_not]
  omega

/-! ## The assigned opcode bytes -/

/-- Whether an opcode byte is assigned does not depend on the amount. -/
theorem isSome_instrOfOpcode_congr (opc : BitVec 8) (n m : BitVec 7) :
    (instrOfOpcode opc n).isSome = (instrOfOpcode opc m).isSome := by
  unfold instrOfOpcode
  split <;> rfl

/-- R51's opcode map and R55's families and functions assign the same bytes. -/
theorem isSome_instrOfOpcode (opc : BitVec 8) (n : BitVec 7) :
    (instrOfOpcode opc n).isSome = assignedOpcode opc := by
  rw [isSome_instrOfOpcode_congr opc n 0]
  revert opc
  decide

/-- The assigned functions of the families are R51's 29 bytes. -/
theorem assignedOpcode_iff_mem (opc : BitVec 8) :
    assignedOpcode opc = true ↔ opc.toNat ∈ opcodeBytes := by
  revert opc
  decide

/-- The opcode byte is the family and the function. -/
theorem assignedOpcode_fieldOpc (cw : BitVec 16) :
    assignedOpcode (fieldOpc cw) = assignedFunction (cw.toNat / 16 % 16) (cw.toNat % 16) := by
  have hfam : cw.toNat % 256 / 16 = cw.toNat / 16 % 16 := by omega
  have hfn : cw.toNat % 256 % 16 = cw.toNat % 16 := by omega
  rw [assignedOpcode, fieldOpc_toNat, hfam, hfn]

/-! ## What decodes and what is legal -/

/-- `Decode` accepts a word when none of its three tests rejects it (R58). -/
theorem decode_eq_ok_iff {cw : BitVec 16} {i : Instr} :
    decode cw = .ok i ↔
      fieldZ cw = 0 ∧ instrOfOpcode (fieldOpc cw) (fieldN cw) = some i ∧
        (fieldFam cw = 4 ∨ fieldN cw = 0) := by
  unfold decode
  split
  case isTrue hz => simp only [hz, false_and, reduceCtorEq]
  case isFalse hz =>
    have hz : fieldZ cw = 0 := not_not.mp hz
    split
    case h_1 hi => simp only [hi, false_and, and_false, reduceCtorEq]
    case h_2 j hi =>
      split
      case isTrue hr => simp only [hr, or_false, and_false, reduceCtorEq]
      case isFalse hr =>
        have ha : fieldFam cw = 4 ∨ fieldN cw = 0 := by tauto
        simp only [hz, hi, ha, and_true, true_and, Except.ok.injEq, Option.some.injEq]

theorem exists_decode_eq_ok_iff (cw : BitVec 16) :
    (∃ i, decode cw = .ok i) ↔
      fieldZ cw = 0 ∧ assignedOpcode (fieldOpc cw) = true ∧ (fieldFam cw = 4 ∨ fieldN cw = 0) := by
  simp only [decode_eq_ok_iff, exists_and_left, exists_and_right, ← Option.isSome_iff_exists,
    isSome_instrOfOpcode]

theorem legalWord_iff (cw : BitVec 16) :
    legalWord cw = true ↔
      fieldZ cw = 0 ∧ assignedOpcode (fieldOpc cw) = true ∧ (fieldFam cw = 4 ∨ fieldN cw = 0) := by
  rw [fieldZ_eq_zero_iff, assignedOpcode_fieldOpc, fieldFam_eq_four_iff, fieldN_eq_zero_iff]
  simp [legalWord, and_assoc]

/-- `Decode` yields an instruction exactly for the legal words. -/
theorem exists_decode_eq_ok_iff_legalWord (cw : BitVec 16) :
    (∃ i, decode cw = .ok i) ↔ legalWord cw = true := by
  rw [exists_decode_eq_ok_iff, legalWord_iff]

/-- The decodable words in the numbers of R55. -/
theorem exists_decode_eq_ok_iff_numbers (cw : BitVec 16) :
    (∃ i, decode cw = .ok i) ↔
      cw.getLsbD 15 = false ∧ cw.toNat % 256 ∈ opcodeBytes ∧
        (cw.toNat / 16 % 16 = 4 ∨ cw.toNat / 256 % 128 = 0) := by
  rw [exists_decode_eq_ok_iff, fieldZ_eq_zero_iff_getLsbD, assignedOpcode_iff_mem, fieldOpc_toNat,
    fieldFam_eq_four_iff, fieldN_eq_zero_iff]

/-! ## The count -/

theorem wordOfFields_toNat (f : BitVec 7 × BitVec 8) :
    (wordOfFields f).toNat = f.1.toNat * 256 + f.2.toNat := by
  have hn : (0#1 ++ f.1).toNat = f.1.toNat := by
    rw [BitVec.toNat_append]
    simp
  calc (wordOfFields f).toNat
      = (0#1 ++ f.1).toNat <<< 8 ||| f.2.toNat := BitVec.toNat_append (0#1 ++ f.1) f.2
    _ = f.1.toNat * 256 + f.2.toNat := by
      rw [hn, ← Nat.shiftLeft_add_eq_or_of_lt f.2.isLt, Nat.shiftLeft_eq]

@[simp] theorem fieldOpc_wordOfFields (f : BitVec 7 × BitVec 8) : fieldOpc (wordOfFields f) = f.2 := by
  apply BitVec.eq_of_toNat_eq
  have := f.2.isLt
  rw [fieldOpc_toNat, wordOfFields_toNat]
  omega

@[simp] theorem fieldN_wordOfFields (f : BitVec 7 × BitVec 8) : fieldN (wordOfFields f) = f.1 := by
  apply BitVec.eq_of_toNat_eq
  have := f.1.isLt
  have := f.2.isLt
  rw [fieldN_toNat, wordOfFields_toNat]
  omega

/-- The fields can be read back. -/
theorem wordOfFields_injective : Function.Injective wordOfFields := by
  intro f g h
  apply Prod.ext
  · simpa using congrArg fieldN h
  · simpa using congrArg fieldOpc h

@[simp] theorem fieldZ_wordOfFields (f : BitVec 7 × BitVec 8) : fieldZ (wordOfFields f) = 0 := by
  have := f.1.isLt
  have := f.2.isLt
  rw [fieldZ_eq_zero_iff, wordOfFields_toNat]
  omega

/-- A word with `Z = 0` is its two other fields. -/
theorem wordOfFields_fields {cw : BitVec 16} (h : fieldZ cw = 0) :
    wordOfFields (fieldN cw, fieldOpc cw) = cw := by
  apply BitVec.eq_of_toNat_eq
  have hz := (fieldZ_eq_zero_iff cw).mp h
  rw [wordOfFields_toNat, fieldN_toNat, fieldOpc_toNat]
  omega

/-- The family is the upper half of the opcode byte. -/
theorem fieldFam_eq_four_iff_fieldOpc (cw : BitVec 16) :
    fieldFam cw = 4 ↔ (fieldOpc cw).toNat / 16 = 4 := by
  rw [fieldFam_eq_four_iff, fieldOpc_toNat]
  omega

theorem mem_legalFields (f : BitVec 7 × BitVec 8) :
    f ∈ legalFields ↔ assignedOpcode f.2 = true ∧ (f.2.toNat / 16 = 4 ∨ f.1 = 0) := by
  simp only [legalFields, shiftOpcodes, plainOpcodes, Finset.mem_union, Finset.mem_product,
    Finset.mem_filter, Finset.mem_univ, Finset.mem_singleton, true_and]
  tauto

/-- The legal words are the words of the legal fields. -/
theorem filter_legalWord_eq_image :
    (Finset.univ.filter fun cw : BitVec 16 => legalWord cw = true) =
      legalFields.image wordOfFields := by
  ext cw
  simp only [Finset.mem_filter, Finset.mem_univ, true_and, Finset.mem_image, mem_legalFields, legalWord_iff,
    fieldFam_eq_four_iff_fieldOpc]
  constructor
  · rintro ⟨hz, hl⟩
    exact ⟨(fieldN cw, fieldOpc cw), hl, wordOfFields_fields hz⟩
  · rintro ⟨f, hf, rfl⟩
    simpa using hf

theorem card_amounts : (Finset.univ : Finset (BitVec 7)).card = 128 := by
  simp only [Finset.card_univ, ← FinEnum.card_eq_fintypeCard, FinEnum.card_bitVec, Nat.reducePow]

theorem card_shiftOpcodes : shiftOpcodes.card = 3 := by decide

theorem card_plainOpcodes : plainOpcodes.card = 26 := by decide

theorem disjoint_shiftOpcodes_plainOpcodes : Disjoint shiftOpcodes plainOpcodes :=
  Finset.disjoint_filter.mpr fun _ _ hs hp => hp.2 hs.2

/-- R55's count: `128 * 3` shift words and 26 others. -/
theorem card_legalFields : legalFields.card = 410 := by
  have hd : Disjoint ((Finset.univ : Finset (BitVec 7)) ×ˢ shiftOpcodes) ({0} ×ˢ plainOpcodes) :=
    Finset.disjoint_product.mpr (.inr disjoint_shiftOpcodes_plainOpcodes)
  simp only [legalFields, Finset.card_union_of_disjoint hd, Finset.card_product, card_amounts,
    Finset.card_singleton, card_shiftOpcodes, card_plainOpcodes]

theorem card_legalWords : (Finset.univ.filter fun cw : BitVec 16 => legalWord cw = true).card = 410 := by
  rw [filter_legalWord_eq_image, Finset.card_image_of_injective _ wordOfFields_injective,
    card_legalFields]

/-- Settles O4: the decoder, the list of families and R55's bytes agree field by field, and the count goes over the
fields of the legal words. -/
theorem legalWordsAreExactlyTheDecodable : Obligations.LegalWordsAreExactlyTheDecodable :=
  ⟨fun cw => ⟨exists_decode_eq_ok_iff_numbers cw, exists_decode_eq_ok_iff_legalWord cw⟩, card_legalWords⟩

end Sys2Proof
end

section
/-!
Proofs of the statements on the construction of values (40_convert.md): the readings of a value extended from one
word. A zero high word leaves `U` the low word's number; a high word of ones adds `2^128 - 2^64` to it, which the
signed reading takes back as `- 2^64`.
-/

namespace Sys2Proof.Machine

variable {s : State} {a : Value}

/-! ## ZEXT64 (R70) -/

@[simp] theorem exec_zext64 : exec .zext64 s = .next (s.complete (zext64 s.aQ)) := rfl

@[simp] theorem zext64_high : (zext64 a).high = 0 := rfl

@[simp] theorem zext64_low : (zext64 a).low = a.low := rfl

@[simp] theorem zext64_U : (zext64 a).U = a.low.toNat := by
  simp [Value.U]

@[simp] theorem zext64_isNeg : (zext64 a).isNeg = false := by
  simp [Value.isNeg]

/-- Settles O24: the latched result is `zext64` of operand A. -/
theorem zext64ZeroExtendsLowWord : Obligations.Zext64ZeroExtendsLowWord :=
  ⟨by decide, fun s => ⟨zext64 s.aQ, exec_zext64, zext64_low, zext64_high, zext64_U, zext64_isNeg⟩⟩

/-! ## SEXT64 (R71) -/

@[simp] theorem exec_sext64 : exec .sext64 s = .next (s.complete (sext64 s.aQ)) := rfl

@[simp] theorem sext64_low : (sext64 a).low = a.low := rfl

/-- The high word repeats bit 63 of the low word. -/
theorem sext64_high :
    (sext64 a).high = if a.low.getLsbD 63 = true then 0xffffffffffffffff#64 else 0#64 := by
  rw [← BitVec.msb_eq_getLsbD_last]
  rfl

theorem sext64_high_of_msb (h : a.low.msb = true) : (sext64 a).high = 0xffffffffffffffff#64 :=
  if_pos h

/-- A word that is non-negative as a signed word is extended as ZEXT64 extends it. -/
theorem sext64_of_msb_false (h : a.low.msb = false) : sext64 a = zext64 a := by
  simp [sext64, zext64, h]

/-- The sign of the word becomes the sign of the value. -/
theorem sext64_isNeg : (sext64 a).isNeg = a.low.msb := by
  cases h : a.low.msb with
  | false => rw [sext64_of_msb_false h, zext64_isNeg]
  | true =>
    rw [Value.isNeg, sext64_high_of_msb h]
    decide

theorem sext64_U_of_msb (h : a.low.msb = true) :
    (sext64 a).U = (2 ^ 64 - 1) * 2 ^ 64 + a.low.toNat := by
  rw [Value.U, sext64_high_of_msb h, sext64_low]
  rfl

/-- The signed reading of the extended word is that of the word. -/
theorem sext64_S : (sext64 a).S = a.low.toInt := by
  rw [BitVec.toInt_eq_msb_cond]
  cases h : a.low.msb with
  | false =>
    rw [sext64_of_msb_false h, Value.S_of_nonneg zext64_isNeg, zext64_U]
    rfl
  | true =>
    rw [Value.S_of_neg (sext64_isNeg.trans h), sext64_U_of_msb h, if_pos rfl]
    omega

/-- Settles O25: the latched result is `sext64` of operand A, and its signed reading is the word's. -/
theorem sext64SignExtendsLowWord : Obligations.Sext64SignExtendsLowWord :=
  ⟨by decide, fun s => ⟨sext64 s.aQ, exec_sext64, sext64_low, sext64_high, sext64_S⟩⟩

/-! ## Reinterpretation (R73) -/

/-- Settles O26: by the sign, from what `S` is of a negative and of a non-negative value. -/
theorem readingsDifferBySign : Obligations.ReadingsDifferBySign := by
  unfold Obligations.ReadingsDifferBySign
  intro x
  constructor
  · intro h
    rw [Value.S_of_neg h, sub_add_cancel]
  · intro h
    rw [Value.S_of_nonneg h]

end Sys2Proof.Machine
end

section
/-!
Proofs of the statements on the comparisons (41_compare.md). Each order is brought to a linear order that Mathlib
knows: the unsigned one to that of `U`, the signed one to the lexicographic order of the two signed words. R89 then
sets the signed one against the numeric order of `S`.
-/

namespace Sys2Proof.Machine

variable {s : State} {a b : Value}

/-! ## The response of a comparison (30_encoding.md R54) -/

@[simp] theorem exec_eq : exec .eq s = s.completeBool (eq128 s.aQ s.bQ) := rfl

@[simp] theorem exec_ltu : exec .ltu s = s.completeBool (ltu128 s.aQ s.bQ) := rfl

@[simp] theorem exec_gtu : exec .gtu s = s.completeBool (gtu128 s.aQ s.bQ) := rfl

@[simp] theorem exec_leu : exec .leu s = s.completeBool (leu128 s.aQ s.bQ) := rfl

@[simp] theorem exec_geu : exec .geu s = s.completeBool (geu128 s.aQ s.bQ) := rfl

@[simp] theorem exec_lts : exec .lts s = s.completeBool (lts128 s.aQ s.bQ) := rfl

@[simp] theorem exec_gts : exec .gts s = s.completeBool (gts128 s.aQ s.bQ) := rfl

@[simp] theorem exec_les : exec .les s = s.completeBool (les128 s.aQ s.bQ) := rfl

@[simp] theorem exec_ges : exec .ges s = s.completeBool (ges128 s.aQ s.bQ) := rfl

/-- A test for `p` answers `p`'s truth value and changes nothing else. -/
theorem State.completeBool_of_iff {x : Bool} {p : Prop} [Decidable p] (h : x = true ↔ p) :
    s.completeBool x = .next { s with phase := .resp, rQ := if p then ⟨0, 1⟩ else ⟨0, 0⟩ } := by
  simp only [State.completeBool, State.complete, bool128, h]

theorem bool128_eq_one_of_iff {x : Bool} {p : Prop} (h : x = true ↔ p) (hp : p) :
    bool128 x = ⟨0, 1⟩ :=
  if_pos (h.mpr hp)

theorem bool128_eq_zero_of_iff {x : Bool} {p : Prop} (h : x = true ↔ p) (hp : ¬p) :
    bool128 x = ⟨0, 0⟩ :=
  if_neg (mt h.mp hp)

/-! ## Equality (R80) -/

theorem Value.eq_iff_words : a = b ↔ a.high = b.high ∧ a.low = b.low := by
  cases a
  cases b
  rw [Value.mk.injEq]

theorem Value.eq_iff_U : a = b ↔ a.U = b.U := ⟨congrArg Value.U, Value.ext_U⟩

theorem Value.eq_iff_S : a = b ↔ a.S = b.S := ⟨congrArg Value.S, Value.ext_S⟩

/-- Every bit pattern is a distinct value (R20): bits 0 to 63 are the low word, the others the high word. -/
theorem Value.eq_iff_forall_bit : a = b ↔ ∀ i < 128, a.bit i = b.bit i := by
  refine ⟨fun h i _ => h ▸ rfl, fun h => Value.eq_iff_words.mpr ⟨?high, ?low⟩⟩
  case high =>
    refine BitVec.eq_of_getLsbD_eq fun i hi => ?_
    simpa [Value.bit] using h (i + 64) (by omega)
  case low =>
    refine BitVec.eq_of_getLsbD_eq fun i hi => ?_
    simpa [Value.bit, hi] using h i (by omega)

theorem eq128_iff_words : eq128 a b = true ↔ a.high = b.high ∧ a.low = b.low := by
  simp [eq128]

theorem eq128_iff : eq128 a b = true ↔ a = b := by
  rw [eq128_iff_words, Value.eq_iff_words]

theorem eq128_comm : eq128 a b = eq128 b a := by
  rw [Bool.eq_iff_iff, eq128_iff, eq128_iff, eq_comm]

/-- Settles O27: the test is equality of the values, which the words, `U`, `S` and the bits each determine. -/
theorem eqComparesAllBits : Obligations.EqComparesAllBits :=
  ⟨by decide, fun _ => exec_eq.trans (State.completeBool_of_iff eq128_iff_words), fun _ _ =>
    ⟨eq128_iff.trans Value.eq_iff_U, eq128_iff.trans Value.eq_iff_S,
      eq128_iff.trans Value.eq_iff_forall_bit⟩⟩

/-! ## The unsigned order (R81 to R84) -/

/-- The high words decide, because a low word is below `2^64`. -/
theorem ltu128_iff : ltu128 a b = true ↔ a.U < b.U := by
  have ha := a.low.isLt
  have hb := b.low.isLt
  simp only [ltu128, Value.U, Bool.or_eq_true, Bool.and_eq_true, beq_iff_eq, BitVec.ult_iff_toNat_lt,
    ← BitVec.toNat_inj]
  omega

/-- GTU is LTU with its operands exchanged (R82). -/
theorem gtu128_eq_ltu128 : gtu128 a b = ltu128 b a := by
  rw [gtu128, ltu128, Bool.beq_comm]

theorem gtu128_iff : gtu128 a b = true ↔ a.U > b.U := by
  rw [gtu128_eq_ltu128, ltu128_iff]

theorem leu128_iff : leu128 a b = true ↔ a.U ≤ b.U := by
  rw [leu128, Bool.or_eq_true, ltu128_iff, eq128_iff, Value.eq_iff_U, le_iff_lt_or_eq]

theorem geu128_eq_leu128 : geu128 a b = leu128 b a := by
  rw [geu128, leu128, gtu128_eq_ltu128, eq128_comm]

theorem geu128_iff : geu128 a b = true ↔ a.U ≥ b.U := by
  rw [geu128_eq_leu128, leu128_iff]

/-- Settles O28: each test decides the order of the unsigned readings. -/
theorem unsignedComparisonsAreNumericOrder : Obligations.UnsignedComparisonsAreNumericOrder :=
  ⟨by decide, by decide, by decide, by decide, fun _ =>
    ⟨exec_ltu.trans (State.completeBool_of_iff ltu128_iff),
      exec_gtu.trans (State.completeBool_of_iff gtu128_iff),
      exec_leu.trans (State.completeBool_of_iff leu128_iff),
      exec_geu.trans (State.completeBool_of_iff geu128_iff)⟩⟩

/-! ## The signed order (R85 to R88) -/

/-- What the signed comparisons order a value by: `s64(high)`, then `s64(low)` (R85). -/
def signedKey (x : Value) : ℤ ×ₗ ℤ := toLex (x.high.toInt, x.low.toInt)

theorem eq_iff_signedKey : a = b ↔ signedKey a = signedKey b := by
  simp only [signedKey, EmbeddingLike.apply_eq_iff_eq, Prod.mk.injEq, BitVec.toInt_inj,
    Value.eq_iff_words]

theorem lts128_iff_words :
    lts128 a b = true ↔
      a.high.toInt < b.high.toInt ∨ (a.high = b.high ∧ a.low.toInt < b.low.toInt) := by
  simp only [lts128, Bool.or_eq_true, Bool.and_eq_true, beq_iff_eq, BitVec.slt_iff_toInt_lt]

theorem lts128_iff : lts128 a b = true ↔ signedKey a < signedKey b := by
  rw [lts128_iff_words, signedKey, signedKey, Prod.Lex.toLex_lt_toLex, BitVec.toInt_inj]

/-- GTS is LTS with its operands exchanged (R86). -/
theorem gts128_eq_lts128 : gts128 a b = lts128 b a := by
  rw [gts128, lts128, Bool.beq_comm]

theorem gts128_iff : gts128 a b = true ↔ signedKey b < signedKey a := by
  rw [gts128_eq_lts128, lts128_iff]

/-- R87: "less or equal". -/
theorem les128_iff_lts128_or_eq : les128 a b = true ↔ lts128 a b = true ∨ a = b := by
  rw [les128, Bool.or_eq_true, eq128_iff]

/-- R88: "greater or equal". -/
theorem ges128_iff_gts128_or_eq : ges128 a b = true ↔ gts128 a b = true ∨ a = b := by
  rw [ges128, Bool.or_eq_true, eq128_iff]

theorem les128_iff : les128 a b = true ↔ signedKey a ≤ signedKey b := by
  rw [les128_iff_lts128_or_eq, lts128_iff, eq_iff_signedKey, le_iff_lt_or_eq]

theorem ges128_eq_les128 : ges128 a b = les128 b a := by
  rw [ges128, les128, gts128_eq_lts128, eq128_comm]

theorem gts128_iff_words :
    gts128 a b = true ↔
      b.high.toInt < a.high.toInt ∨ (b.high = a.high ∧ b.low.toInt < a.low.toInt) := by
  rw [gts128_eq_lts128, lts128_iff_words]

/-- Settles O29: the strict tests are the order of the pairs of signed words, and the others add equality. -/
theorem signedComparisonsBreakTiesBySignedLowWord :
    Obligations.SignedComparisonsBreakTiesBySignedLowWord := by
  refine ⟨by decide, by decide, by decide, by decide, fun s => ?_⟩
  have hlt := lts128_iff_words (a := s.aQ) (b := s.bQ)
  have hgt := gts128_iff_words (a := s.aQ) (b := s.bQ)
  have hle := les128_iff_lts128_or_eq.trans (or_congr_left hlt)
  have hge := ges128_iff_gts128_or_eq.trans (or_congr_left hgt)
  exact ⟨_, _, _, _, exec_lts, exec_gts, exec_les, exec_ges,
    bool128_eq_one_of_iff hlt, bool128_eq_zero_of_iff hlt,
    bool128_eq_one_of_iff hgt, bool128_eq_zero_of_iff hgt,
    bool128_eq_one_of_iff hle, bool128_eq_zero_of_iff hle,
    bool128_eq_one_of_iff hge, bool128_eq_zero_of_iff hge⟩

/-! ## Both orders are total (R90) -/

/-- Of three tests for less, equal and greater in a linear order, exactly one answers true. -/
theorem toNat_add_toNat_add_toNat_of_iff {α : Type} [LinearOrder α] {x y : α} {lt eq gt : Bool}
    (hlt : lt = true ↔ x < y) (heq : eq = true ↔ x = y) (hgt : gt = true ↔ y < x) :
    lt.toNat + eq.toNat + gt.toNat = 1 := by
  obtain h | h | h := lt_trichotomy x y
  · rw [hlt.mpr h, Bool.eq_false_iff.mpr (mt heq.mp h.ne), Bool.eq_false_iff.mpr (mt hgt.mp h.not_gt)]
    rfl
  · rw [Bool.eq_false_iff.mpr (mt hlt.mp h.not_lt), heq.mpr h, Bool.eq_false_iff.mpr (mt hgt.mp h.not_gt)]
    rfl
  · rw [Bool.eq_false_iff.mpr (mt hlt.mp h.not_gt), Bool.eq_false_iff.mpr (mt heq.mp h.ne'), hgt.mpr h]
    rfl

theorem leu128_eq_not_gtu128 : leu128 a b = !gtu128 a b := by
  rw [Bool.eq_iff_iff, Bool.not_eq_true', ← Bool.not_eq_true, leu128_iff, gtu128_iff, gt_iff_lt, not_lt]

theorem geu128_eq_not_ltu128 : geu128 a b = !ltu128 a b := by
  rw [geu128_eq_leu128, leu128_eq_not_gtu128, gtu128_eq_ltu128]

theorem les128_eq_not_gts128 : les128 a b = !gts128 a b := by
  rw [Bool.eq_iff_iff, Bool.not_eq_true', ← Bool.not_eq_true, les128_iff, gts128_iff, not_lt]

theorem ges128_eq_not_lts128 : ges128 a b = !lts128 a b := by
  rw [ges128_eq_les128, les128_eq_not_gts128, gts128_eq_lts128]

/-- Settles O31: both orders are those of a key in a linear order, and the key determines the value. -/
theorem ordersAreStrictAndTotal : Obligations.OrdersAreStrictAndTotal := by
  refine ⟨fun a b => ⟨?unsignedTotal, ?signedTotal, leu128_eq_not_gtu128, geu128_eq_not_ltu128,
    les128_eq_not_gts128, ges128_eq_not_lts128, ?lexicographic⟩,
    fun a => ⟨?unsignedIrrefl, ?signedIrrefl⟩, fun a b c => ⟨?unsignedTrans, ?signedTrans⟩⟩
  case unsignedTotal =>
    exact toNat_add_toNat_add_toNat_of_iff ltu128_iff (eq128_iff.trans Value.eq_iff_U) gtu128_iff
  case signedTotal =>
    exact toNat_add_toNat_add_toNat_of_iff lts128_iff (eq128_iff.trans eq_iff_signedKey) gts128_iff
  case lexicographic => rw [BitVec.toInt_inj, lts128_iff_words]
  case unsignedIrrefl => exact Bool.eq_false_iff.mpr (mt ltu128_iff.mp (lt_irrefl _))
  case signedIrrefl => exact Bool.eq_false_iff.mpr (mt lts128_iff.mp (lt_irrefl _))
  case unsignedTrans =>
    simp only [ltu128_iff]
    exact lt_trans
  case signedTrans =>
    simp only [lts128_iff]
    exact lt_trans

/-! ## The signed order and the numeric one (R89) -/

/-- In the signed reading only the high word is signed. -/
theorem Value.S_eq_toInt_add (x : Value) : x.S = x.high.toInt * 2 ^ 64 + x.low.toNat := by
  rw [Value.S, Value.isNeg, Value.U, BitVec.toInt_eq_msb_cond]
  split <;> push_cast <;> ring

/-- Where the high words differ they decide. -/
theorem Value.S_lt_iff_of_high_ne (h : a.high ≠ b.high) : a.S < b.S ↔ a.high.toInt < b.high.toInt := by
  have ha := a.low.isLt
  have hb := b.low.isLt
  have hne := mt BitVec.toInt_inj.mp h
  rw [Value.S_eq_toInt_add, Value.S_eq_toInt_add]
  omega

/-- On a tie the low words decide, as unsigned words. -/
theorem Value.S_lt_iff_of_high_eq (h : a.high = b.high) : a.S < b.S ↔ a.low.ult b.low = true := by
  rw [Value.S_eq_toInt_add, Value.S_eq_toInt_add, h, BitVec.ult_iff_toNat_lt]
  omega

/-- A word with a different top bit is the greater as an unsigned word and the lesser as a signed one. -/
theorem slt_eq_ult_swap_of_msb_ne {x y : Word} (h : x.msb ≠ y.msb) : x.slt y = y.ult x := by
  rw [BitVec.slt_eq_not_ult_of_msb_neq h, BitVec.ult_eq_msb_of_msb_neq h,
    BitVec.ult_eq_msb_of_msb_neq h.symm, Bool.eq_not.mpr h]

theorem lts128_of_high_ne (h : a.high ≠ b.high) : lts128 a b = a.high.slt b.high := by
  simp [lts128, h]

theorem lts128_of_high_eq (h : a.high = b.high) : lts128 a b = a.low.slt b.low := by
  simp [lts128, h, BitVec.slt_eq_decide]

/-- R89's first region: the words that decide are ordered alike in both readings. -/
theorem lts128_iff_S_lt (h : a.high ≠ b.high ∨ a.low.msb = b.low.msb) :
    lts128 a b = true ↔ a.S < b.S := by
  by_cases hh : a.high = b.high
  case neg => rw [lts128_of_high_ne hh, BitVec.slt_iff_toInt_lt, Value.S_lt_iff_of_high_ne hh]
  case pos =>
    have hl : a.low.msb = b.low.msb := h.resolve_left (not_not.mpr hh)
    rw [lts128_of_high_eq hh, BitVec.slt_eq_ult_of_msb_eq hl, Value.S_lt_iff_of_high_eq hh]

/-- R89's second region: the numerically greater operand is reported as the lesser. -/
theorem lts128_iff_S_gt (hh : a.high = b.high) (hl : a.low.msb ≠ b.low.msb) :
    lts128 a b = true ↔ b.S < a.S := by
  rw [lts128_of_high_eq hh, slt_eq_ult_swap_of_msb_ne hl, Value.S_lt_iff_of_high_eq hh.symm]

/-- Settles O30: in each region LTS is settled for both orders of the operands; GTS is LTS with them exchanged, and
LES and GES are the negations of the two. -/
theorem signedOrderLeavesNumericOrderOnTies : Obligations.SignedOrderLeavesNumericOrderOnTies := by
  intro a b
  simp only [les128_eq_not_gts128, ges128_eq_not_lts128, gts128_eq_lts128, Bool.not_eq_true',
    ← Bool.not_eq_true]
  constructor
  case left =>
    intro h
    have hab : lts128 a b = true ↔ a.S < b.S := lts128_iff_S_lt h
    have hba : lts128 b a = true ↔ b.S < a.S := lts128_iff_S_lt (h.imp Ne.symm Eq.symm)
    exact ⟨hab, hba, hba.not.trans not_lt, hab.not.trans not_lt⟩
  case right =>
    rintro ⟨hh, hl⟩
    have hab : lts128 a b = true ↔ b.S < a.S := lts128_iff_S_gt hh hl
    have hba : lts128 b a = true ↔ a.S < b.S := lts128_iff_S_gt hh.symm hl.symm
    exact ⟨hab, hba, hba.not.trans not_lt, hab.not.trans not_lt⟩

end Sys2Proof.Machine
end

section
/-!
Proofs of the statements on the bitwise commands (42_bitwise.md). A bit of a value is a bit of one of its words, and
the commands work on each word by itself; NOT takes each word, and so the value, from all ones.
-/

namespace Sys2Proof.Machine

variable {s : State} {a b : Value}

/-! ## The response of a bitwise command -/

@[simp] theorem exec_and : exec .and s = .next (s.complete (and128 s.aQ s.bQ)) := rfl

@[simp] theorem exec_or : exec .or s = .next (s.complete (or128 s.aQ s.bQ)) := rfl

@[simp] theorem exec_xor : exec .xor s = .next (s.complete (xor128 s.aQ s.bQ)) := rfl

@[simp] theorem exec_not : exec .not s = .next (s.complete (not128 s.aQ)) := rfl

/-! ## Bit by bit -/

@[simp] theorem and128_bit (i : Nat) : (and128 a b).bit i = (a.bit i && b.bit i) := by
  by_cases h : i < 64 <;> simp [Value.bit, and128, h]

@[simp] theorem or128_bit (i : Nat) : (or128 a b).bit i = (a.bit i || b.bit i) := by
  by_cases h : i < 64 <;> simp [Value.bit, or128, h]

@[simp] theorem xor128_bit (i : Nat) : (xor128 a b).bit i = (a.bit i ^^ b.bit i) := by
  by_cases h : i < 64 <;> simp [Value.bit, xor128, h]

/-- A complement holds no bit above its width, so here the bound on `i` is needed. -/
theorem not128_bit {i : Nat} (hi : i < 128) : (not128 a).bit i = !a.bit i := by
  by_cases h : i < 64
  case pos => simp [Value.bit, not128, h]
  case neg =>
    have hword : i - 64 < 64 := by omega
    simp [Value.bit, not128, h, hword]

/-! ## The readings of a complement (R103) -/

theorem not128_U : (not128 a).U = 2 ^ 128 - 1 - a.U := by
  have hhigh := a.high.isLt
  have hlow := a.low.isLt
  simp only [not128, Value.U, BitVec.toNat_not]
  omega

@[simp] theorem not128_isNeg : (not128 a).isNeg = !a.isNeg := by
  simp [not128, Value.isNeg]

/-- The complement changes the sign, so one of the two values has `2^128` taken from its unsigned reading. -/
theorem not128_S : (not128 a).S = -a.S - 1 := by
  have hU : (not128 a).U = 2 ^ 128 - 1 - a.U := not128_U
  have hlt := a.U_lt
  cases h : a.isNeg with
  | false =>
    rw [Value.S_of_neg (by simp [h]), Value.S_of_nonneg h]
    omega
  | true =>
    rw [Value.S_of_nonneg (by simp [h]), Value.S_of_neg h]
    omega

/-- Settles O33: the four results are those of the model's word operations, read bit by bit. -/
theorem bitwiseCommandsActBitByBit : Obligations.BitwiseCommandsActBitByBit :=
  ⟨by decide, by decide, by decide, by decide, fun _ =>
    ⟨_, _, _, _, exec_and, exec_or, exec_xor, exec_not,
      fun i hi => ⟨and128_bit i, or128_bit i, xor128_bit i, not128_bit hi⟩, not128_U, not128_S⟩⟩

end Sys2Proof.Machine
end

section
/-!
Proofs of the statements on the shifts (43_shift.md). A value is one 128-bit word, the high word before the low one,
and each shift is that word's own: bit by bit, since the OR of R110's cases reads 64 bits in a row out of two words.
The readings and the laws of R114 are then those of `BitVec`.
-/

namespace Sys2Proof

variable {x y : Value} {i : Nat}

/-! ## A value as one word -/

/-- A value as one word of 128 bits. -/
def Value.bits (x : Value) : BitVec 128 := x.high ++ x.low

theorem Value.bit_of_lt (h : i < 64) : x.bit i = x.low.getLsbD i := if_pos h

theorem Value.bit_of_ge (h : 64 ≤ i) : x.bit i = x.high.getLsbD (i - 64) := if_neg h.not_gt

/-- The bits of the word are those of the value (R6). -/
@[simp] theorem Value.getLsbD_bits : x.bits.getLsbD i = x.bit i := BitVec.getLsbD_append

@[simp] theorem Value.toNat_bits : x.bits.toNat = x.U := by
  rw [Value.bits, BitVec.toNat_append, ← Nat.shiftLeft_add_eq_or_of_lt x.low.isLt, Nat.shiftLeft_eq, Value.U]

@[simp] theorem Value.toInt_bits : x.bits.toInt = x.S := by
  rw [BitVec.toInt_eq_toNat_bmod, Value.toNat_bits, Value.S_eq_bmod]

@[simp] theorem Value.msb_bits : x.bits.msb = x.isNeg := BitVec.msb_append

theorem Value.ext_bits (h : x.bits = y.bits) : x = y :=
  Value.ext_U (by simpa using congrArg BitVec.toNat h)

end Sys2Proof

namespace Sys2Proof.Machine

variable {s : State} {a b x : Value} {i m n : Nat}

/-! ## The response of a shift -/

@[simp] theorem exec_shl (k : BitVec 7) : exec (.shl k) s = .next (s.complete (shl128 s.aQ k.toNat)) := rfl

@[simp] theorem exec_shrl (k : BitVec 7) : exec (.shrl k) s = .next (s.complete (shrl128 s.aQ k.toNat)) := rfl

@[simp] theorem exec_shra (k : BitVec 7) : exec (.shra k) s = .next (s.complete (shra128 s.aQ k.toNat)) := rfl

/-! ## The shifts by word (R110)

As shifts of words the case `n = 0` is that of `1..63`, and `n = 64` in SHRA is that of `65..127`: a word shifted by
64 is zero. -/

@[simp] theorem shrl128_zero : shrl128 a 0 = a := rfl

@[simp] theorem shra128_zero : shra128 a 0 = a := by
  unfold shra128
  split <;> rfl

theorem shl128_of_lt (h : n < 64) :
    shl128 a n = ⟨a.low >>> (64 - n) ||| a.high <<< n, a.low <<< n⟩ := by
  by_cases h0 : n = 0
  · simp [shl128, h0, BitVec.ushiftRight_eq_zero]
  · rw [shl128, if_neg h0, if_neg h.not_ge, BitVec.or_comm]

theorem shl128_of_ge (h : 64 ≤ n) : shl128 a n = ⟨a.low <<< (n - 64), 0⟩ := by
  rw [shl128, if_neg (by omega), if_pos h]

theorem shrl128_of_lt (h : n < 64) :
    shrl128 a n = ⟨a.high >>> n, a.low >>> n ||| a.high <<< (64 - n)⟩ := by
  by_cases h0 : n = 0
  · simp [shrl128, h0]
  · rw [shrl128, if_neg h0, if_neg h.not_ge]

theorem shrl128_of_ge (h : 64 ≤ n) : shrl128 a n = ⟨0, a.high >>> (n - 64)⟩ := by
  rw [shrl128, if_neg (by omega), if_pos h]

theorem shra128_of_nonneg (ha : a.isNeg = false) : shra128 a n = shrl128 a n := if_pos ha

theorem shra128_of_neg_of_lt (ha : a.isNeg = true) (h : n < 64) :
    shra128 a n =
      ⟨a.high >>> n ||| allOnes64 <<< (64 - n), a.low >>> n ||| a.high <<< (64 - n)⟩ := by
  by_cases h0 : n = 0
  · simp [shra128, ha, h0]
  · rw [shra128, if_neg (by simp [ha]), if_neg h0, if_pos (by omega)]

theorem shra128_of_neg_of_ge (ha : a.isNeg = true) (h : 64 ≤ n) :
    shra128 a n = ⟨allOnes64, a.high >>> (n - 64) ||| allOnes64 <<< (64 - (n - 64))⟩ := by
  by_cases h64 : n = 64
  · simp [shra128, ha, h64]
  · rw [shra128, if_neg (by simp [ha]), if_neg (by omega), if_neg (by omega), if_neg h64]

/-! ## The shifts bit by bit -/

/-- The OR of two shifted words is 64 bits in a row, from bit `k` on, of the value the two words make. -/
theorem getLsbD_ushiftRight_or_shiftLeft {high low : Word} {j k : Nat} (hj : j < 64) (hk : k ≤ 64) :
    (low >>> k ||| high <<< (64 - k)).getLsbD j = (Value.mk high low).bit (k + j) := by
  rw [BitVec.getLsbD_or, BitVec.getLsbD_ushiftRight, BitVec.getLsbD_shiftLeft]
  obtain h | h := Nat.lt_or_ge (k + j) 64
  · have hlow : j < 64 - k := by omega
    simp [Value.bit_of_lt h, hlow]
  · have hhigh : ¬ j < 64 - k := by omega
    have hindex : j - (64 - k) = k + j - 64 := by omega
    simp [Value.bit_of_ge h, hj, hhigh, hindex, BitVec.getLsbD_of_ge low _ h]

/-- Zeros enter at bit 0 (R111). -/
theorem shl128_bit_of_lt (h : i < n) : (shl128 a n).bit i = false := by
  obtain hn | hn := Nat.lt_or_ge n 64
  · rw [shl128_of_lt hn, Value.bit_of_lt (by omega)]
    simp [h]
  · rw [shl128_of_ge hn]
    obtain hi | hi := Nat.lt_or_ge i 64
    · rw [Value.bit_of_lt hi, BitVec.ofNat_eq_ofNat, BitVec.getLsbD_zero]
    · have hlt : i - 64 < n - 64 := by omega
      rw [Value.bit_of_ge hi]
      simp [hlt]

/-- Bit `i` moves up to bit `i + n`, where there is such a bit (R111). -/
theorem shl128_bit_add (h : i + n < 128) : (shl128 a n).bit (i + n) = a.bit i := by
  obtain hn | hn := Nat.lt_or_ge n 64
  · have hcross := getLsbD_ushiftRight_or_shiftLeft (high := a.high) (low := a.low)
      (j := i + n - 64) (k := 64 - n) (by omega) (by omega)
    rw [shl128_of_lt hn]
    obtain hi | hi := Nat.lt_or_ge (i + n) 64
    · rw [Value.bit_of_lt hi, Value.bit_of_lt (by omega), BitVec.getLsbD_shiftLeft]
      simp [hi]
    · have hindex : 64 - n + (i + n - 64) = i := by omega
      have hamount : 64 - (64 - n) = n := by omega
      rw [hindex, hamount] at hcross
      rw [Value.bit_of_ge hi]
      exact hcross
  · have hbit : i + n - 64 < 64 := by omega
    have hmoved : ¬ i + n - 64 < n - 64 := by omega
    have hindex : i + n - 64 - (n - 64) = i := by omega
    rw [shl128_of_ge hn, Value.bit_of_ge (by omega), Value.bit_of_lt (by omega), BitVec.getLsbD_shiftLeft]
    simp only [hbit, hmoved, hindex, decide_true, decide_false, Bool.not_false, Bool.true_and]

/-- Bit `n + i` moves down to bit `i`; above bit 127 there are zeros (R112). -/
theorem shrl128_bit (hi : i < 128) : (shrl128 a n).bit i = a.bit (n + i) := by
  obtain hn | hn := Nat.lt_or_ge n 64
  · rw [shrl128_of_lt hn]
    obtain h | h := Nat.lt_or_ge i 64
    · rw [Value.bit_of_lt h, getLsbD_ushiftRight_or_shiftLeft h hn.le]
    · have hindex : n + (i - 64) = n + i - 64 := by omega
      rw [Value.bit_of_ge h, Value.bit_of_ge (by omega), BitVec.getLsbD_ushiftRight, hindex]
  · rw [shrl128_of_ge hn, Value.bit_of_ge (by omega : 64 ≤ n + i)]
    obtain h | h := Nat.lt_or_ge i 64
    · have hindex : n - 64 + i = n + i - 64 := by omega
      rw [Value.bit_of_lt h, BitVec.getLsbD_ushiftRight, hindex]
    · rw [Value.bit_of_ge h, BitVec.getLsbD_of_ge a.high _ (by omega), BitVec.ofNat_eq_ofNat,
        BitVec.getLsbD_zero]

theorem getLsbD_allOnes64 (h : i < 64) : allOnes64.getLsbD i = true := by
  have hones : allOnes64 = BitVec.allOnes 64 := rfl
  rw [hones, BitVec.getLsbD_allOnes, decide_eq_true h]

/-- Above its low word a value with a high word of ones has ones only. -/
theorem bit_allOnes64 {w : Word} (hi : i < 128) :
    (Value.mk allOnes64 w).bit i = if i < 64 then w.getLsbD i else true := by
  split
  case isTrue h => exact Value.bit_of_lt h
  case isFalse h => rw [Value.bit_of_ge (by omega), getLsbD_allOnes64 (by omega)]

/-- Bit `n + i` of a negative value moves down to bit `i`; above bit 127 there are ones (R113). -/
theorem shra128_bit_of_neg (ha : a.isNeg = true) (hn : n < 128) (hi : i < 128) :
    (shra128 a n).bit i = if n + i < 128 then a.bit (n + i) else true := by
  obtain hn' | hn' := Nat.lt_or_ge n 64
  · rw [shra128_of_neg_of_lt ha hn']
    obtain h | h := Nat.lt_or_ge i 64
    · rw [Value.bit_of_lt h, getLsbD_ushiftRight_or_shiftLeft h hn'.le, if_pos (by omega)]
    · have hindex : n + (i - 64) = n + i - 64 := by omega
      rw [Value.bit_of_ge h, getLsbD_ushiftRight_or_shiftLeft (by omega) hn'.le, bit_allOnes64 (by omega),
        Value.bit_of_ge (by omega : 64 ≤ n + i), hindex]
      exact if_congr (by omega) rfl rfl
  · rw [shra128_of_neg_of_ge ha hn', bit_allOnes64 hi, Value.bit_of_ge (by omega : 64 ≤ n + i)]
    obtain h | h := Nat.lt_or_ge i 64
    · have hindex : n - 64 + i = n + i - 64 := by omega
      rw [if_pos h, getLsbD_ushiftRight_or_shiftLeft h (by omega), bit_allOnes64 (by omega), hindex]
      exact if_congr (by omega) rfl rfl
    · rw [if_neg (by omega), if_neg (by omega)]

/-! ## The shifts of the one word -/

@[simp] theorem bits_shl128 : (shl128 a n).bits = a.bits <<< n := by
  refine BitVec.eq_of_getLsbD_eq fun i hi => ?_
  rw [BitVec.getLsbD_shiftLeft, Value.getLsbD_bits, Value.getLsbD_bits]
  obtain h | h := Nat.lt_or_ge i n
  · simp [shl128_bit_of_lt h, h]
  · obtain ⟨j, rfl⟩ := Nat.exists_eq_add_of_le' h
    simp [shl128_bit_add hi, hi]

@[simp] theorem bits_shrl128 : (shrl128 a n).bits = a.bits >>> n := by
  refine BitVec.eq_of_getLsbD_eq fun i hi => ?_
  rw [BitVec.getLsbD_ushiftRight, Value.getLsbD_bits, Value.getLsbD_bits, shrl128_bit hi]

theorem bits_shra128 (hn : n < 128) : (shra128 a n).bits = a.bits.sshiftRight n := by
  cases ha : a.isNeg with
  | false =>
    rw [shra128_of_nonneg ha, bits_shrl128, BitVec.sshiftRight_eq_of_msb_false (Value.msb_bits.trans ha)]
  | true =>
    refine BitVec.eq_of_getLsbD_eq fun i hi => ?_
    rw [BitVec.getLsbD_sshiftRight, Value.getLsbD_bits, Value.getLsbD_bits, Value.msb_bits, ha,
      shra128_bit_of_neg ha hn hi]
    simp [hi]

/-! ## The readings of a shifted value -/

theorem shl128_U : (shl128 a n).U = a.U * 2 ^ n % 2 ^ 128 := by
  rw [← Value.toNat_bits, bits_shl128, BitVec.toNat_shiftLeft, Value.toNat_bits, Nat.shiftLeft_eq]

theorem shrl128_U : (shrl128 a n).U = a.U / 2 ^ n := by
  rw [← Value.toNat_bits, bits_shrl128, BitVec.toNat_ushiftRight, Value.toNat_bits, Nat.shiftRight_eq_div_pow]

theorem shra128_S (hn : n < 128) : (shra128 a n).S = Int.fdiv a.S (2 ^ n) := by
  rw [← Value.toInt_bits, bits_shra128 hn, BitVec.toInt_sshiftRight, Value.toInt_bits, Int.shiftRight_eq_div_pow,
    Int.fdiv_eq_ediv_of_nonneg _ (by positivity)]
  norm_cast

/-- Settles O35: the encoding is that of the fields, the words are the definition's, and `U` is the one word's. -/
theorem shlMultipliesByPowerOfTwo : Obligations.ShlMultipliesByPowerOfTwo := by
  refine fun n => ⟨wordOfFields_toNat (n, 0x40), fun s => ⟨_, exec_shl n, ?words, shl128_U⟩⟩
  unfold shl128
  split_ifs <;> rfl

/-- Settles O36: as SHL, with `U` divided. -/
theorem shrlDividesByPowerOfTwo : Obligations.ShrlDividesByPowerOfTwo := by
  refine fun n => ⟨wordOfFields_toNat (n, 0x41), fun s => ⟨_, exec_shrl n, ?words, shrl128_U⟩⟩
  unfold shrl128
  split_ifs <;> rfl

/-- Settles O37: the words are the definition's, a non-negative value goes by SHRL, and `S` is the one word's. -/
theorem shraFloorsSignedQuotient : Obligations.ShraFloorsSignedQuotient := by
  refine fun n => ⟨wordOfFields_toNat (n, 0x42), fun s => ⟨_, exec_shra n, ?words, shra128_S n.isLt⟩⟩
  unfold shra128
  split_ifs
  case pos => exact shrl128_U
  all_goals rfl

/-! ## The laws of R114 -/

theorem shrl128_shl128_U (hn : n ≤ 128) : (shrl128 (shl128 x n) n).U = x.U % 2 ^ (128 - n) := by
  have hpow : 2 ^ 128 = 2 ^ (128 - n) * 2 ^ n := by rw [← pow_add, Nat.sub_add_cancel hn]
  rw [shrl128_U, shl128_U, hpow, Nat.mul_mod_mul_right, Nat.mul_div_cancel _ (by positivity)]

theorem shl128_shrl128_U : (shl128 (shrl128 x n) n).U = x.U / 2 ^ n * 2 ^ n := by
  rw [shl128_U, shrl128_U, Nat.mod_eq_of_lt ((Nat.div_mul_le_self _ _).trans_lt x.U_lt)]

theorem shl128_shl128 : shl128 (shl128 x m) n = shl128 x (m + n) :=
  Value.ext_bits (by simp only [bits_shl128, BitVec.shiftLeft_add])

theorem shrl128_shrl128 : shrl128 (shrl128 x m) n = shrl128 x (m + n) :=
  Value.ext_bits (by simp only [bits_shrl128, BitVec.shiftRight_add])

theorem shra128_shra128 (h : m + n < 128) : shra128 (shra128 x m) n = shra128 x (m + n) := by
  apply Value.ext_bits
  rw [bits_shra128 (by omega), bits_shra128 (by omega), bits_shra128 h, BitVec.sshiftRight_add]

/-- A sum of words that wrapped is below its first operand, so the carry is what the sum lost (R130). -/
theorem carryOfSum_toNat (v w : Word) : (carryOfSum (v + w) v).toNat = (v.toNat + w.toNat) / 2 ^ 64 := by
  have hv := v.isLt
  have hw := w.isLt
  simp only [carryOfSum, BitVec.ult_iff_toNat_lt, BitVec.toNat_add]
  split
  case isTrue =>
    change 1 = _
    omega
  case isFalse =>
    change 0 = _
    omega

/-- With the carry in the high word, the sum of the words is the sum of the values (R130). -/
theorem add128_U : (add128 a b).U = (a.U + b.U) % 2 ^ 128 := by
  simp only [add128, Value.U, BitVec.toNat_add, carryOfSum_toNat]
  omega

theorem shl128_one : shl128 x 1 = add128 x x :=
  Value.ext_U (by rw [shl128_U, add128_U, pow_one, mul_two])

/-- Settles O38: clearing by the readings, composition by the one word. -/
theorem shiftsComposeAndClear : Obligations.ShiftsComposeAndClear := by
  intro x m n hn
  refine ⟨shrl128_shl128_U (by omega), shl128_shrl128_U,
    fun hmn => ⟨shl128_shl128, shrl128_shrl128, shra128_shra128 (by omega)⟩, ?asShrl, shl128_one⟩
  rintro (hx | rfl)
  · exact shra128_of_nonneg hx
  · rw [shra128_zero, shrl128_zero]

end Sys2Proof.Machine
end

section
/-!
Proofs of the statements on the additive unit (44_additive.md). As words of 128 bits, the results of ADD, NEG and SUB
are the sum, the negation and the difference of the operands; so `V` takes the integer operations to the unit's, and
the readings and the laws of R133 are those of `BitVec`.
-/

namespace Sys2Proof

/-- `V(u)` as one word. -/
@[simp] theorem Value.bits_V (u : Int) : (Value.V u).bits = BitVec.ofInt 128 u := by
  apply BitVec.eq_of_toNat_eq
  have h := Value.U_V u
  rw [Value.toNat_bits, BitVec.toNat_ofInt]
  omega

/-- The signed reading determines the value too. -/
@[simp] theorem Value.V_S (x : Value) : Value.V x.S = x :=
  Value.ext_bits (by rw [Value.bits_V, ← Value.toInt_bits, BitVec.ofInt_toInt])

@[simp] theorem Value.bits_zero : Value.zero.bits = 0#128 := by decide

@[simp] theorem Value.bits_min : Value.min.bits = BitVec.intMin 128 := by decide

end Sys2Proof

namespace Sys2Proof.Machine

variable {s : State} {a b c : Value}

/-! ## The response of an additive command -/

@[simp] theorem exec_add : exec .add s = .next (s.complete (add128 s.aQ s.bQ)) := rfl

@[simp] theorem exec_sub : exec .sub s = .next (s.complete (sub128 s.aQ s.bQ)) := rfl

@[simp] theorem exec_neg : exec .neg s = .next (s.complete (neg128 s.aQ)) := rfl

/-! ## The results as sum, negation and difference of words of 128 bits -/

@[simp] theorem bits_add128 : (add128 a b).bits = a.bits + b.bits := by
  apply BitVec.eq_of_toNat_eq
  rw [BitVec.toNat_add, Value.toNat_bits, Value.toNat_bits, Value.toNat_bits, add128_U]

/-- A word is zero exactly when adding one to its complement wraps. -/
theorem carryOfNegate_eq_carryOfSum (w : Word) : carryOfNegate w = carryOfSum (~~~w + 1) (~~~w) := by
  refine if_congr ?_ rfl rfl
  rw [← BitVec.toNat_inj, BitVec.ult_iff_toNat_lt]
  simp only [BitVec.toNat_add, BitVec.toNat_not, BitVec.ofNat_eq_ofNat, BitVec.toNat_ofNat]
  omega

/-- The negator is the adder on the complement and `ONE` (R131). -/
theorem neg128_eq_add128_not128 : neg128 a = add128 (not128 a) Value.one := by
  simp [neg128, add128, not128, Value.one, carryOfNegate_eq_carryOfSum]

@[simp] theorem bits_not128 : (not128 a).bits = ~~~a.bits := by
  apply BitVec.eq_of_toNat_eq
  rw [BitVec.toNat_not, Value.toNat_bits, Value.toNat_bits, not128_U]

@[simp] theorem bits_neg128 : (neg128 a).bits = -a.bits := by
  have hone : Value.one.bits = 1#128 := by decide
  rw [neg128_eq_add128_not128, bits_add128, bits_not128, hone, BitVec.neg_eq_not_add]

@[simp] theorem bits_sub128 : (sub128 a b).bits = a.bits - b.bits := by
  rw [sub128, bits_add128, bits_neg128, BitVec.sub_eq_add_neg]

/-! ## The results as `V` of the integer results -/

theorem V_add (u v : Int) : Value.V (u + v) = add128 (Value.V u) (Value.V v) :=
  Value.ext_bits (by simp only [Value.bits_V, bits_add128, BitVec.ofInt_add])

theorem V_neg (u : Int) : Value.V (-u) = neg128 (Value.V u) :=
  Value.ext_bits (by simp only [Value.bits_V, bits_neg128, BitVec.ofInt_neg])

theorem V_sub (u v : Int) : Value.V (u - v) = sub128 (Value.V u) (Value.V v) := by
  rw [sub_eq_add_neg, V_add, V_neg, sub128]

/-! ## The readings of the results -/

theorem add128_S : (add128 a b).S = Int.bmod (a.S + b.S) (2 ^ 128) := by
  simp only [← Value.toInt_bits, bits_add128, BitVec.toInt_add]

theorem neg128_U : (neg128 a).U = (2 ^ 128 - a.U) % 2 ^ 128 := by
  simp only [← Value.toNat_bits, bits_neg128, BitVec.toNat_neg]

theorem sub128_U : ((sub128 a b).U : Int) = ((a.U : Int) - b.U) % 2 ^ 128 := by
  rw [← Value.U_V, V_sub, Value.V_U, Value.V_U]

theorem sub128_S : (sub128 a b).S = Int.bmod (a.S - b.S) (2 ^ 128) := by
  simp only [← Value.toInt_bits, bits_sub128, BitVec.toInt_sub]

/-- Only `MIN` has no negation among the signed values. -/
theorem neg128_S (h : a ≠ Value.min) : (neg128 a).S = -a.S := by
  have hbits : a.bits ≠ BitVec.intMin 128 := fun hmin =>
    h (Value.ext_bits (hmin.trans Value.bits_min.symm))
  rw [← Value.toInt_bits, bits_neg128, BitVec.toInt_neg_of_ne_intMin hbits, Value.toInt_bits]

theorem neg128_min : neg128 Value.min = Value.min := by decide

/-! ## The carry and the borrow between the words -/

theorem carryOfSum_eq_ite_toNat (sum first : Word) :
    carryOfSum sum first = if sum.toNat < first.toNat then 1 else 0 :=
  if_congr BitVec.ult_iff_toNat_lt rfl rfl

/-- The sum of two words is below the first exactly when it wrapped (R130). -/
theorem toNat_add_lt_iff (v w : Word) : (v + w).toNat < v.toNat ↔ 2 ^ 64 ≤ v.toNat + w.toNat := by
  rw [BitVec.toNat_add]
  omega

/-- The borrow-propagating form of SUB (R132). -/
theorem sub128_eq_borrow :
    sub128 a b =
      ⟨a.high - b.high - (if a.low.toNat < b.low.toNat then 1 else 0), a.low - b.low⟩ := by
  have hsub := sub128_U (a := a) (b := b)
  have hborrow : (if a.low.toNat < b.low.toNat then 1 else 0 : Word).toNat =
      if a.low.toNat < b.low.toNat then 1 else 0 := by split <;> rfl
  apply Value.ext_U
  simp only [Value.U, BitVec.toNat_sub, hborrow] at hsub ⊢
  split <;> omega

/-- Settles O39: the words are the adder's, and the readings follow from its carry. -/
theorem addIsSumModulo2Pow128 : Obligations.AddIsSumModulo2Pow128 :=
  ⟨by decide, fun s => ⟨add128 s.aQ s.bQ, exec_add, rfl,
    congrArg (_ + ·) (carryOfSum_eq_ite_toNat _ _), toNat_add_lt_iff _ _, add128_U, add128_S⟩⟩

/-- Settles O40: the words are the negator's, and the readings are those of a negated 128-bit word. -/
theorem negIsTwosComplement : Obligations.NegIsTwosComplement :=
  ⟨by decide, fun s => ⟨neg128 s.aQ, exec_neg, rfl, rfl, neg128_U, neg128_S,
    fun h => h ▸ neg128_min, neg128_eq_add128_not128⟩⟩

/-- Settles O41: SUB is ADD of NEG by definition; the words are the borrow form's. -/
theorem subIsDifferenceModulo2Pow128 : Obligations.SubIsDifferenceModulo2Pow128 :=
  ⟨by decide, fun s => ⟨sub128 s.aQ s.bQ, exec_sub, rfl, sub128_U, sub128_S,
    congrArg Value.low sub128_eq_borrow, congrArg Value.high sub128_eq_borrow⟩⟩

/-! ## The laws of R133 -/

theorem add128_neg128 : add128 a (neg128 a) = Value.zero :=
  Value.ext_bits (by rw [bits_add128, bits_neg128, Value.bits_zero, BitVec.add_right_neg])

theorem add128_zero : add128 a Value.zero = a :=
  Value.ext_bits (by rw [bits_add128, Value.bits_zero, BitVec.add_zero])

theorem add128_comm : add128 a b = add128 b a :=
  Value.ext_bits (by rw [bits_add128, bits_add128, BitVec.add_comm])

theorem add128_assoc : add128 (add128 a b) c = add128 a (add128 b c) :=
  Value.ext_bits (by simp only [bits_add128, BitVec.add_assoc])

/-- The round trip. -/
theorem sub128_add128 : sub128 (add128 a b) b = a := by
  rw [sub128, add128_assoc, add128_neg128, add128_zero]

/-- Settles O42: the laws are those of the words of 128 bits, and the two wraps are computed. -/
theorem addFormsGroupWithNeg : Obligations.AddFormsGroupWithNeg :=
  ⟨fun _ => ⟨add128_neg128, add128_zero⟩, fun _ _ => ⟨add128_comm, sub128_add128⟩,
    fun _ _ _ => add128_assoc, by decide, by decide⟩

/-! ## Overflow is not signalled (R134) -/

/-- The sum is below its first operand exactly when it wrapped, as in the inner carry test. -/
theorem ltu128_add128_iff : ltu128 (add128 a b) a = true ↔ 2 ^ 128 ≤ a.U + b.U := by
  have ha := a.U_lt
  have hb := b.U_lt
  rw [ltu128_iff, add128_U]
  omega

/-- Settles O43: `V` takes the integer operations to the unit's, and both readings of a value back to it. -/
theorem additiveOverflowNeverSignalled : Obligations.AdditiveOverflowNeverSignalled := by
  refine ⟨fun s => ?_, neg128_min, fun _ _ => ltu128_add128_iff⟩
  simp only [V_add, V_sub, V_neg, Value.V_U, Value.V_S, and_true]
  exact ⟨exec_add, exec_sub, exec_neg⟩

end Sys2Proof.Machine
end

section
/-!
Proofs of the statements on the multipliers (45_multiply.md). The partial products of MUL64U are summed with every
carry, so its result is the exact product. As words of 128 bits MULU and MULS are then both the product of the
operands, and `V` takes the integer product to them; the corrections of MUL64S take away what reading a negative
operand unsigned had added.
-/

namespace Sys2Proof

theorem Value.V_eq_iff_emod (u v : Int) : Value.V u = Value.V v ↔ u % 2 ^ 128 = v % 2 ^ 128 := by
  rw [← Value.U_V, ← Value.U_V, Nat.cast_inj, ← Machine.Value.eq_iff_U]

/-- `S(V(u))` is `u` wrapped into `-2^127 .. 2^127 - 1` (R7). -/
theorem Value.S_V (u : Int) : (Value.V u).S = Int.bmod u (2 ^ 128) := by
  rw [← Value.toInt_bits, Value.bits_V, BitVec.toInt_ofInt]

/-- A value with a word taken from its high word. -/
def Value.subHigh (x : Value) (w : Word) : Value := ⟨x.high - w, x.low⟩

/-- What is taken from the high word has the weight `2^64`. -/
theorem Value.subHigh_V (u : Int) (w : Word) : (Value.V u).subHigh w = Value.V (u - 2 ^ 64 * w.toNat) := by
  apply Value.ext_U
  have hu := Value.U_V u
  have hdiff := Value.U_V (u - 2 ^ 64 * w.toNat)
  have hw := w.isLt
  simp only [Value.subHigh, Value.U, BitVec.toNat_sub] at hu hdiff ⊢
  omega

/-- Two numbers whose reading as one value fits 128 bits fit its words. -/
theorem Value.U_mk_ofNat {h l : Nat} (hl : l < 2 ^ 64) (hlt : h * 2 ^ 64 + l < 2 ^ 128) :
    (Value.mk (BitVec.ofNat 64 h) (BitVec.ofNat 64 l)).U = h * 2 ^ 64 + l := by
  rw [Value.U_mk, BitVec.toNat_ofNat, BitVec.toNat_ofNat, Nat.mod_eq_of_lt hl, Nat.mod_eq_of_lt (by omega)]

@[simp] theorem Value.bits_minusOne : Value.minusOne.bits = -1#128 := by decide

end Sys2Proof

namespace Sys2Proof.Machine

variable {s : State} {a b : Value} {x y : Word}

/-! ## The response of a multiplication -/

@[simp] theorem exec_mul64u : exec .mul64u s = .next (s.complete (mul64u s.aQ.low s.bQ.low)) := rfl

@[simp] theorem exec_mul64s : exec .mul64s s = .next (s.complete (mul64s s.aQ.low s.bQ.low)) := rfl

@[simp] theorem exec_mulu : exec .mulu s = .next (s.complete (mulu128 s.aQ s.bQ)) := rfl

@[simp] theorem exec_muls : exec .muls s = .next (s.complete (muls128 s.aQ s.bQ)) := rfl

/-! ## MUL64U: the partial products with their carries (R150) -/

/-- The four partial products of 32-bit halves, each at its weight. -/
theorem mul_eq_partial_products (m n : Nat) :
    m * n = lo32 m * lo32 n + (lo32 m * hi32 n + hi32 m * lo32 n) * 2 ^ 32 + hi32 m * hi32 n * 2 ^ 64 := by
  have hm : lo32 m + 2 ^ 32 * hi32 m = m := Nat.mod_add_div m _
  have hn : lo32 n + 2 ^ 32 * hi32 n = n := Nat.mod_add_div n _
  calc m * n = (lo32 m + 2 ^ 32 * hi32 m) * (lo32 n + 2 ^ 32 * hi32 n) := by rw [hm, hn]
    _ = _ := by ring

/-- The grouping through `mid` keeps every carry. -/
theorem partial_products_sum (p00 p01 p10 p11 : Nat) :
    (p11 + hi32 p01 + hi32 p10 + (hi32 p00 + lo32 p01 + lo32 p10) / 2 ^ 32) * 2 ^ 64
        + (lo32 (hi32 p00 + lo32 p01 + lo32 p10) * 2 ^ 32 + lo32 p00)
      = p00 + (p01 + p10) * 2 ^ 32 + p11 * 2 ^ 64 := by
  simp only [lo32, hi32]
  omega

theorem mul_toNat_lt (x y : Word) : x.toNat * y.toNat < 2 ^ 128 :=
  (Nat.mul_lt_mul'' x.isLt y.isLt).trans_eq (by norm_num)

theorem mul64u_U : (mul64u x y).U = x.toNat * y.toNat := by
  have hsum := (partial_products_sum _ _ _ _).trans (mul_eq_partial_products x.toNat y.toNat).symm
  refine (Value.U_mk_ofNat ?low ?value).trans hsum
  case low =>
    simp only [lo32]
    omega
  case value => exact hsum.trans_lt (mul_toNat_lt x y)

theorem mul64u_low_toNat : (mul64u x y).low.toNat = x.toNat * y.toNat % 2 ^ 64 := by
  rw [Value.low_toNat, mul64u_U]

/-- Settles O44: the result is the sum of the partial products, which fits 128 bits. -/
theorem mul64uIsExactProduct : Obligations.Mul64uIsExactProduct :=
  ⟨by decide, fun _ => ⟨_, exec_mul64u, mul64u_U⟩⟩

/-! ## MUL64S: the corrections of the high word (R151) -/

/-- What a negative `x` takes from the high word of `x * y`: the other operand (R151). -/
def mulCorrection (x y : Word) : Word := if x.getLsbD 63 = true then y else 0

theorem mulCorrection_eq_msb : mulCorrection x y = if x.msb then y else 0 := by
  rw [mulCorrection, BitVec.msb_eq_getLsbD_last]

theorem mul64s_eq_subHigh :
    mul64s x y = ((mul64u x y).subHigh (mulCorrection x y)).subHigh (mulCorrection y x) := by
  simp only [mul64s, Value.subHigh, mulCorrection_eq_msb]
  split_ifs <;> simp

/-- A word's signed reading is its unsigned one, less `2^64` where it is negative (R7). -/
theorem toInt_eq_sub_msb (x : Word) : x.toInt = x.toNat - 2 ^ 64 * x.msb.toNat := by
  rw [BitVec.toInt_eq_msb_cond]
  split <;> simp [*]

theorem mulCorrection_toNat : (mulCorrection x y).toNat = x.msb.toNat * y.toNat := by
  rw [mulCorrection_eq_msb]
  split <;> simp [*]

/-- R151's derivation: the last term vanishes modulo `2^128`. -/
theorem toInt_mul_toInt_eq (x y : Word) :
    x.toInt * y.toInt =
      (x.toNat * y.toNat : Nat) - 2 ^ 64 * (mulCorrection x y).toNat - 2 ^ 64 * (mulCorrection y x).toNat
        + 2 ^ 128 * (x.msb.toNat * y.msb.toNat) := by
  rw [toInt_eq_sub_msb, toInt_eq_sub_msb, mulCorrection_toNat, mulCorrection_toNat]
  push_cast
  ring

theorem mul64s_eq_V : mul64s x y = Value.V (x.toInt * y.toInt) := by
  rw [mul64s_eq_subHigh, ← Value.V_U (mul64u x y), mul64u_U, Value.subHigh_V, Value.subHigh_V,
    Value.V_eq_iff_emod, toInt_mul_toInt_eq, Int.add_mul_emod_self_left]

/-- The signed product of two words is at most `2^126` in magnitude, so it is not wrapped. -/
theorem mul64s_S : (mul64s x y).S = x.toInt * y.toInt := by
  have hge : -2 ^ 126 ≤ x.toInt * y.toInt := by simpa using BitVec.le_toInt_mul_toInt (x := x) (y := y)
  have hle : x.toInt * y.toInt ≤ 2 ^ 126 := by simpa using BitVec.toInt_mul_toInt_le (x := x) (y := y)
  rw [mul64s_eq_V, Value.S_V]
  exact Int.bmod_eq_of_le_mul_two (by omega) (by omega)

/-- Settles O45: the words are those of the corrected product, which is `V` of the signed one. -/
theorem mul64sIsExactSignedProduct : Obligations.Mul64sIsExactSignedProduct :=
  ⟨by decide, fun s => ⟨mul64s s.aQ.low s.bQ.low, exec_mul64s, rfl,
    congrArg Value.high mul64s_eq_subHigh, mul64s_S⟩⟩

/-! ## MULU: the product modulo `2^128` (R152) -/

/-- What is added to the high word modulo `2^64` is added to the value, at weight `2^64`, modulo `2^128`. -/
theorem add_high_mod {h l m n : Nat} (hl : l < 2 ^ 64) :
    ((h + m % 2 ^ 64) % 2 ^ 64 + n % 2 ^ 64) % 2 ^ 64 * 2 ^ 64 + l
      = (h * 2 ^ 64 + l + (m + n) * 2 ^ 64) % 2 ^ 128 := by
  omega

/-- The product of the high words is a multiple of `2^128`; the three others give the low 128 bits. -/
theorem mulu128_U : (mulu128 a b).U = a.U * b.U % 2 ^ 128 := by
  have hproduct : a.U * b.U = a.low.toNat * b.low.toNat
      + (a.low.toNat * b.high.toNat + a.high.toNat * b.low.toNat) * 2 ^ 64
      + a.high.toNat * b.high.toNat * 2 ^ 128 := by
    unfold Value.U
    ring
  rw [hproduct, Nat.add_mul_mod_self_right, ← mul64u_U, mulu128, Value.U_mk, BitVec.toNat_add,
    BitVec.toNat_add, mul64u_low_toNat (x := a.low) (y := b.high), mul64u_low_toNat (x := a.high)]
  exact add_high_mod (mul64u a.low b.low).low.isLt

@[simp] theorem bits_mulu128 : (mulu128 a b).bits = a.bits * b.bits := by
  apply BitVec.eq_of_toNat_eq
  rw [BitVec.toNat_mul, Value.toNat_bits, Value.toNat_bits, Value.toNat_bits, mulu128_U]

/-- Settles O46: the words are the multiplier's, and the dropped products are multiples of `2^128`. -/
theorem muluIsProductModulo2Pow128 : Obligations.MuluIsProductModulo2Pow128 :=
  ⟨by decide, fun s => ⟨mulu128 s.aQ s.bQ, exec_mulu, rfl, rfl, mulu128_U⟩⟩

/-! ## MULS: by magnitude and sign, the same product (R153, R154) -/

theorem bits_abs128 : (abs128 a).bits = if a.isNeg then -a.bits else a.bits := by
  rw [abs128, apply_ite Value.bits, bits_neg128]

/-- The signs taken from the operands are given back to the product of the magnitudes. -/
theorem bits_signed_product_of_magnitudes :
    (if a.isNeg ^^ b.isNeg then neg128 (mulu128 (abs128 a) (abs128 b))
      else mulu128 (abs128 a) (abs128 b)).bits = a.bits * b.bits := by
  rw [apply_ite Value.bits, bits_neg128, bits_mulu128, bits_abs128, bits_abs128]
  cases a.isNeg <;> cases b.isNeg <;> simp

theorem muls128_minusOne (a : Value) : muls128 a Value.minusOne = neg128 a := if_pos rfl

/-- The product by `-1` is the negation of the other operand, as in the general path (R154). -/
@[simp] theorem bits_muls128 : (muls128 a b).bits = a.bits * b.bits := by
  unfold muls128
  split
  case isTrue hb => rw [hb, bits_neg128, Value.bits_minusOne, BitVec.mul_neg, BitVec.mul_one]
  case isFalse =>
    split
    case isTrue ha => rw [ha, bits_neg128, Value.bits_minusOne, BitVec.neg_mul, BitVec.one_mul]
    case isFalse => exact bits_signed_product_of_magnitudes

theorem muls128_eq_mulu128 : muls128 a b = mulu128 a b :=
  Value.ext_bits (bits_muls128.trans bits_mulu128.symm)

theorem mulu128_comm : mulu128 a b = mulu128 b a :=
  Value.ext_bits (by rw [bits_mulu128, bits_mulu128, BitVec.mul_comm])

theorem minusOne_muls128 (b : Value) : muls128 Value.minusOne b = neg128 b := by
  rw [muls128_eq_mulu128, mulu128_comm, ← muls128_eq_mulu128, muls128_minusOne]

theorem muls128_S : (muls128 a b).S = Int.bmod (a.S * b.S) (2 ^ 128) := by
  simp only [← Value.toInt_bits, bits_muls128, BitVec.toInt_mul]

/-- Settles O47: the signed reading is that of the product of the 128-bit words. -/
theorem mulsIsWrappedSignedProduct : Obligations.MulsIsWrappedSignedProduct :=
  ⟨by decide, fun s => ⟨muls128 s.aQ s.bQ, exec_muls, muls128_S,
    fun h => h ▸ muls128_minusOne _, fun h => h ▸ minusOne_muls128 _⟩⟩

/-- Settles O48: both commands latch the product of the 128-bit words. -/
theorem mulsAndMuluAgree : Obligations.MulsAndMuluAgree := fun s => by
  rw [exec_muls, exec_mulu, muls128_eq_mulu128]

/-! ## The powers of ten (R155) -/

theorem V_mul (u v : Int) : Value.V (u * v) = mulu128 (Value.V u) (Value.V v) :=
  Value.ext_bits (by simp only [Value.bits_V, bits_mulu128, BitVec.ofInt_mul])

theorem V_one : Value.V 1 = Value.one := by decide

/-- Multiplying again and again takes the powers of an integer to the unit's, wrapped or not. -/
theorem iterate_mulu128_V (u : Int) (k : Nat) :
    (fun x => mulu128 x (Value.V u))^[k] Value.one = Value.V (u ^ k) := by
  induction k with
  | zero => exact V_one.symm.trans (congrArg Value.V (pow_zero u).symm)
  | succ k ih => rw [Function.iterate_succ_apply', ih, ← V_mul, pow_succ]

theorem V_U_of_lt {n : Nat} (h : n < 2 ^ 128) : (Value.V n).U = n := by
  have := Value.U_V n
  omega

/-- `10^38` is below `2^128`, so up to there the chain's values are the powers themselves. -/
theorem V_pow_ten_U {k : Nat} (hk : k ≤ 38) : (Value.V (10 ^ k)).U = 10 ^ k := by
  have hle : 10 ^ k ≤ 10 ^ 38 := Nat.pow_le_pow_right (by decide) hk
  have hlt : 10 ^ k < 2 ^ 128 := hle.trans_lt (by decide)
  exact_mod_cast V_U_of_lt hlt

/-- Settles O49: the chain is `V` of the powers of ten, which are the readings up to `10^38`. -/
theorem powersOfTenAndMinusOne : Obligations.PowersOfTenAndMinusOne := by
  unfold Obligations.PowersOfTenAndMinusOne
  intro power
  have hpower : ∀ k, power k = Value.V (10 ^ k) := iterate_mulu128_V 10
  refine ⟨fun k hk => gtu128_iff.mpr ?increasing, hpower 38, (hpower 39).trans (by decide), muls128_minusOne⟩
  rw [hpower, hpower, V_pow_ten_U hk, V_pow_ten_U hk.le]
  exact Nat.pow_lt_pow_right (by decide) k.lt_succ_self

end Sys2Proof.Machine
end

section
/-!
Proofs of the statements on division (46_divide.md): the shift-and-subtract engine (R171). Alignment shifts the
divisor and the tracker up alike, without loss, until twice the divisor exceeds the dividend; with `n` passes to come
the subtract loop keeps `U(a) = U(quo) * U(b) + U(rem)` and `U(rem) < U(b) * 2^n`, so after the last one the registers
hold quotient and remainder.
-/

namespace Sys2Proof

variable {x : Value}

@[simp] theorem Value.zero_U : Value.zero.U = 0 := rfl

@[simp] theorem Value.one_U : Value.one.U = 1 := rfl

@[simp] theorem Value.zero_S : Value.zero.S = 0 := rfl

theorem Value.U_eq_zero_iff : x.U = 0 ↔ x = Value.zero := by
  rw [Machine.Value.eq_iff_U, Value.zero_U]

theorem Value.S_eq_zero_iff : x.S = 0 ↔ x = Value.zero := by
  rw [Machine.Value.eq_iff_S, Value.zero_S]

theorem Value.U_pos (h : x ≠ Value.zero) : 0 < x.U := Nat.pos_of_ne_zero (mt Value.U_eq_zero_iff.mp h)

end Sys2Proof

namespace Sys2Proof.Machine

variable {a b den cur : Value} {g : DivRegs} {k n : Nat}

/-! ## The bitwise OR as a sum -/

theorem or128_U : (or128 a b).U = a.U ||| b.U := by
  have hbits : (or128 a b).bits = a.bits ||| b.bits :=
    BitVec.eq_of_getLsbD_eq fun i _ => by simp
  rw [← Value.toNat_bits, hbits, BitVec.toNat_or, Value.toNat_bits, Value.toNat_bits]

/-- Setting a bit below all those of a number adds its weight. -/
theorem or_two_pow_of_dvd {q : Nat} (h : 2 ^ (n + 1) ∣ q) : q ||| 2 ^ n = q + 2 ^ n := by
  obtain ⟨m, rfl⟩ := h
  rw [mul_comm, ← Nat.shiftLeft_eq, Nat.shiftLeft_add_eq_or_of_lt (Nat.pow_lt_pow_right (by decide) n.lt_succ_self)]

/-! ## Alignment -/

theorem mul_two_pow_succ_div_two (m n : Nat) : m * 2 ^ (n + 1) / 2 = m * 2 ^ n := by
  rw [pow_succ, ← mul_assoc, Nat.mul_div_cancel _ (by decide)]

theorem two_pow_succ_div_two (n : Nat) : 2 ^ (n + 1) / 2 = 2 ^ n := by
  simpa using mul_two_pow_succ_div_two 1 n

/-- The divisor and the tracker, both shifted up by `k` without loss. -/
structure ShiftedUp (b : Value) (k : Nat) (den cur : Value) : Prop where
  den_U : den.U = b.U * 2 ^ k
  cur_U : cur.U = 2 ^ k

theorem shiftedUp_zero : ShiftedUp b 0 b Value.one := ⟨(mul_one _).symm, rfl⟩

theorem ShiftedUp.cur_U_le_den_U (h : ShiftedUp b k den cur) (hb : b ≠ Value.zero) : cur.U ≤ den.U := by
  rw [h.den_U, h.cur_U]
  exact Nat.le_mul_of_pos_left _ (Value.U_pos hb)

/-- No more than 127 shifts fit (R179). -/
theorem ShiftedUp.le_127 (h : ShiftedUp b k den cur) : k ≤ 127 := by
  have hlt : 2 ^ k < 2 ^ 128 := h.cur_U ▸ cur.U_lt
  exact Nat.lt_succ_iff.mp ((Nat.pow_lt_pow_iff_right (by decide)).mp hlt)

/-- The guard of R171: with bit 127 clear one more shift loses nothing. -/
theorem ShiftedUp.shl (h : ShiftedUp b k den cur) (hb : b ≠ Value.zero) (hden : den.isNeg = false) :
    ShiftedUp b (k + 1) (shl128 den 1) (shl128 cur 1) := by
  have hcur := h.cur_U_le_den_U hb
  have hlt : den.U < 2 ^ 127 := Nat.not_le.mp (mt den.isNeg_iff.mpr (by simp [hden]))
  constructor
  · rw [shl128_U, Nat.mod_eq_of_lt (by omega), h.den_U, pow_one, pow_succ 2 k, mul_assoc]
  · rw [shl128_U, Nat.mod_eq_of_lt (by omega), h.cur_U, pow_one, pow_succ]

theorem ShiftedUp.shrl (h : ShiftedUp b (k + 1) den cur) :
    ShiftedUp b k (shrl128 den 1) (shrl128 cur 1) := by
  constructor
  · rw [shrl128_U, h.den_U, pow_one, mul_two_pow_succ_div_two]
  · rw [shrl128_U, h.cur_U, pow_one, two_pow_succ_div_two]

theorem alignAgain_iff : alignAgain a den = true ↔ den.U ≤ a.U ∧ den.isNeg = false := by
  simp [alignAgain, leu128_iff]

/-- The alignment loop ends by its own test within 127 passes (R179). -/
theorem alignLoop_spec (hb : b ≠ Value.zero) (h : ShiftedUp b k den cur) (hn : 127 ≤ n + k) :
    ∃ m, ShiftedUp b m (alignLoop a n den cur).1 (alignLoop a n den cur).2 ∧
      alignAgain a (alignLoop a n den cur).1 = false := by
  induction n generalizing k den cur with
  | zero =>
    have htop : 2 ^ 127 ≤ den.U :=
      calc 2 ^ 127 ≤ 2 ^ k := Nat.pow_le_pow_right (by decide) (by omega)
        _ = cur.U := h.cur_U.symm
        _ ≤ den.U := h.cur_U_le_den_U hb
    refine ⟨k, h, Bool.eq_false_iff.mpr fun hagain => ?_⟩
    obtain ⟨-, hneg⟩ := alignAgain_iff.mp hagain
    exact absurd (den.isNeg_iff.mpr htop) (Bool.eq_false_iff.mp hneg)
  | succ n ih =>
    rw [alignLoop]
    split
    case isTrue hagain =>
      obtain ⟨-, hneg⟩ := alignAgain_iff.mp hagain
      exact ih (h.shl hb hneg) (by omega)
    case isFalse hagain => exact ⟨k, h, Bool.eq_false_iff.mpr hagain⟩

/-- Where the test fails without the divisor exceeding the dividend, its top bit is set. -/
theorem lt_two_mul_of_not_alignAgain (h : alignAgain a den = false) (hle : den.U ≤ a.U) :
    a.U < 2 * den.U := by
  have htop : 2 ^ 127 ≤ den.U := by
    rw [← Value.isNeg_iff, ← Bool.not_eq_false]
    exact fun hneg => Bool.eq_false_iff.mp h (alignAgain_iff.mpr ⟨hle, hneg⟩)
  have ha := a.U_lt
  omega

/-- After the step back the next multiple of the divisor exceeds the dividend (R171). -/
theorem afterAlignment_spec (hb : b ≠ Value.zero) (hba : b.U ≤ a.U) :
    ∃ k, ShiftedUp b k (afterAlignment a b).den (afterAlignment a b).cur ∧
      a.U < 2 * (afterAlignment a b).den.U ∧
      (afterAlignment a b).rem = a ∧ (afterAlignment a b).quo = Value.zero := by
  obtain ⟨m, h, hagain⟩ := alignLoop_spec (a := a) (n := 127) hb shiftedUp_zero (by omega)
  rw [afterAlignment]
  generalize alignLoop a 127 b Value.one = p at h hagain
  dsimp only
  split
  case isTrue hgt =>
    have hden := h.den_U
    rw [gtu128_iff] at hgt
    cases m with
    | zero => omega
    | succ m =>
      rw [pow_succ, ← mul_assoc, ← h.shrl.den_U] at hden
      exact ⟨m, h.shrl, by dsimp only; omega, rfl, rfl⟩
  case isFalse hgt =>
    rw [gtu128_iff, gt_iff_lt, not_lt] at hgt
    exact ⟨m, h, lt_two_mul_of_not_alignAgain hagain hgt, rfl, rfl⟩

/-! ## The subtract loop -/

/-- What the subtract loop keeps, with `n` passes to come (R171's loop invariant). -/
structure SubtractInv (a b : Value) (n : Nat) (g : DivRegs) : Prop where
  den_U : g.den.U = b.U * 2 ^ n / 2
  cur_U : g.cur.U = 2 ^ n / 2
  quo_dvd : 2 ^ n ∣ g.quo.U
  rem_lt : g.rem.U < b.U * 2 ^ n
  identity : a.U = g.quo.U * b.U + g.rem.U

theorem afterAlignment_subtractInv (hb : b ≠ Value.zero) (hba : b.U ≤ a.U) :
    ∃ n ≤ 128, SubtractInv a b n (afterAlignment a b) := by
  obtain ⟨k, hshift, hlt, hrem, hquo⟩ := afterAlignment_spec hb hba
  rw [hshift.den_U] at hlt
  refine ⟨k + 1, Nat.succ_le_succ hshift.le_127, ?_, ?_, by simp [hquo], ?_, by simp [hquo, hrem]⟩
  · rw [hshift.den_U, mul_two_pow_succ_div_two]
  · rw [hshift.cur_U, two_pow_succ_div_two]
  · rw [hrem, pow_succ, ← mul_assoc]
    omega

/-- The tracker is zero exactly when no pass is to come. -/
theorem SubtractInv.cur_eq_zero_iff (h : SubtractInv a b n g) : g.cur = Value.zero ↔ n = 0 := by
  rw [← Value.U_eq_zero_iff, h.cur_U]
  cases n with
  | zero => decide
  | succ n => simp [pow_succ]

theorem sub128_U_of_le (h : b.U ≤ a.U) : (sub128 a b).U = a.U - b.U := by
  have hsub := sub128_U (a := a) (b := b)
  have ha := a.U_lt
  omega

/-- One pass settles the quotient's bit `n`. -/
theorem SubtractInv.pass (h : SubtractInv a b (n + 1) g) : SubtractInv a b n (subtractPass g) := by
  obtain ⟨hden, hcur, hquo, hrem, hid⟩ := h
  have hden' : g.den.U = b.U * 2 ^ n := by rw [hden, mul_two_pow_succ_div_two]
  have hcur' : g.cur.U = 2 ^ n := by rw [hcur, two_pow_succ_div_two]
  have hrem' : g.rem.U < b.U * 2 ^ n * 2 := by rwa [pow_succ, ← mul_assoc] at hrem
  have hdvd : 2 ^ n ∣ g.quo.U := (pow_dvd_pow 2 n.le_succ).trans hquo
  have hshrl_den : (shrl128 g.den 1).U = b.U * 2 ^ n / 2 := by rw [shrl128_U, hden', pow_one]
  have hshrl_cur : (shrl128 g.cur 1).U = 2 ^ n / 2 := by rw [shrl128_U, hcur', pow_one]
  rw [subtractPass]
  split
  case isTrue hge =>
    rw [geu128_iff] at hge
    have hsub : (sub128 g.rem g.den).U = g.rem.U - b.U * 2 ^ n := by rw [sub128_U_of_le hge, hden']
    have hor : (or128 g.quo g.cur).U = g.quo.U + 2 ^ n := by
      rw [or128_U, hcur', or_two_pow_of_dvd hquo]
    refine ⟨hshrl_den, hshrl_cur, ?_, ?_, ?_⟩
    · rw [hor]
      exact hdvd.add dvd_rfl
    · rw [hsub]
      omega
    · rw [hor, hsub, add_mul, mul_comm (2 ^ n)]
      omega
  case isFalse hge =>
    rw [geu128_iff, hden'] at hge
    exact ⟨hshrl_den, hshrl_cur, hdvd, Nat.not_le.mp hge, hid⟩

theorem subtractLoop_subtractInv (h : SubtractInv a b n g) (hnk : n ≤ k) :
    SubtractInv a b 0 (subtractLoop k g) := by
  induction k generalizing n g with
  | zero => 
    obtain rfl := Nat.le_zero.mp hnk
    exact h
  | succ k ih =>
    rw [subtractLoop]
    split
    case isTrue hcur =>
      obtain rfl := h.cur_eq_zero_iff.mp hcur
      exact h
    case isFalse hcur =>
      obtain ⟨m, rfl⟩ := Nat.exists_eq_succ_of_ne_zero (mt h.cur_eq_zero_iff.mpr hcur)
      exact ih h.pass (by omega)

/-! ## The engine's result -/

/-- After the last pass the remainder is below the divisor, so the identity is that of the division. -/
theorem SubtractInv.quo_rem (h : SubtractInv a b 0 g) : g.quo.U = a.U / b.U ∧ g.rem.U = a.U % b.U := by
  have hlt : g.rem.U < b.U := by simpa using h.rem_lt
  have hid : g.rem.U + b.U * g.quo.U = a.U := by rw [h.identity, mul_comm, add_comm]
  obtain ⟨hquo, hrem⟩ := (Nat.div_mod_unique (Nat.zero_lt_of_lt hlt)).mpr ⟨hid, hlt⟩
  exact ⟨hquo.symm, hrem.symm⟩

theorem divEngine_U (hb : b ≠ Value.zero) (hba : b.U ≤ a.U) :
    (divEngine a b).quo.U = a.U / b.U ∧ (divEngine a b).rem.U = a.U % b.U := by
  obtain ⟨n, hn, h⟩ := afterAlignment_subtractInv hb hba
  rw [divEngine]
  exact (subtractLoop_subtractInv h hn).quo_rem

/-- Quotient and remainder, by the early exits or by the engine (R171). -/
theorem divModU_U (hb : b ≠ Value.zero) :
    (divModU a b).1.U = a.U / b.U ∧ (divModU a b).2.U = a.U % b.U := by
  rw [divModU]
  split
  case isTrue hgt =>
    rw [gtu128_iff] at hgt
    exact ⟨Value.zero_U.trans (Nat.div_eq_of_lt hgt).symm, (Nat.mod_eq_of_lt hgt).symm⟩
  case isFalse hgt =>
    rw [gtu128_iff, gt_iff_lt, not_lt] at hgt
    split
    case isTrue heq =>
      obtain rfl := eq128_iff.mp heq
      exact ⟨Value.one_U.trans (Nat.div_self (Value.U_pos hb)).symm,
        Value.zero_U.trans (Nat.mod_self _).symm⟩
    case isFalse => exact divEngine_U hb hgt

theorem divModU_fst_U (hb : b ≠ Value.zero) : (divModU a b).1.U = a.U / b.U := (divModU_U hb).1

theorem divModU_snd_U (hb : b ≠ Value.zero) : (divModU a b).2.U = a.U % b.U := (divModU_U hb).2

end Sys2Proof.Machine
end

section
/-!
Proofs of the statements on the division commands (46_divide.md). As words of 128 bits, the engine's results on the
magnitudes with the signs given back are `BitVec.sdiv` and `BitVec.srem`, the truncating quotient and remainder; the
shortcut branches of R175 and R176 agree with them, but for the zero that `literal_zero` answers for a dividend `MIN`.
-/

namespace Sys2Proof.Machine

variable {s t : State} {i : Instr} {a b x : Value} {c c' : Config}

/-! ## The response of a division -/

@[simp] theorem exec_divu :
    exec .divu s = s.completeDivision (divRegsAfter s.divRegs s.aQ s.bQ) (divModU s.aQ s.bQ).1 := rfl

@[simp] theorem exec_remu :
    exec .remu s = s.completeDivision (divRegsAfter s.divRegs s.aQ s.bQ) (divModU s.aQ s.bQ).2 := rfl

@[simp] theorem exec_divs :
    exec .divs s = s.completeDivision (signedRegsAfter (divsShortcut s.config s.aQ s.bQ) s.divRegs s.aQ s.bQ)
      (divs128 s.config s.aQ s.bQ) := rfl

@[simp] theorem exec_rems :
    exec .rems s = s.completeDivision (signedRegsAfter (remsShortcut s.aQ s.bQ) s.divRegs s.aQ s.bQ)
      (rems128 s.aQ s.bQ) := rfl

/-- The four divisions end alike, so they share the test for a zero divisor. -/
theorem exec_of_isDivision (h : isDivision i = true) : ∃ g r, exec i s = s.completeDivision g r := by
  cases i
  case divu | remu | divs | rems => exact ⟨_, _, rfl⟩
  all_goals cases h

/-- Settles O13: a divisor is zero when both its words are, and the test at the end of a division is on it. -/
theorem divisionNeedsNonzeroDivisor : Obligations.DivisionNeedsNonzeroDivisor := by
  intro i hi s
  obtain ⟨g, r, hexec⟩ := exec_of_isDivision (s := s) hi
  have hzero : s.bQ = Value.zero ↔ s.bQ.high = 0 ∧ s.bQ.low = 0 := Value.eq_iff_words
  rw [← hzero, hexec]
  exact ⟨State.completeDivision_of_eq g r, fun hb => ⟨_, State.completeDivision_of_ne g r hb, rfl⟩⟩

/-! ## The unsigned commands (R172, R173) -/

/-- Settles O51: the latched result is the engine's quotient. -/
theorem divuIsFloorQuotient : Obligations.DivuIsFloorQuotient :=
  ⟨by decide, fun _ hb =>
    ⟨_, _, exec_divu.trans (State.completeDivision_of_ne _ _ hb), rfl, divModU_fst_U hb⟩⟩

/-- Settles O52: the latched result is the engine's remainder. -/
theorem remuIsUnsignedRemainder : Obligations.RemuIsUnsignedRemainder :=
  ⟨by decide, fun _ hb =>
    ⟨_, _, exec_remu.trans (State.completeDivision_of_ne _ _ hb), rfl, divModU_snd_U hb⟩⟩

/-! ## The magnitude (R174) -/

theorem abs128_U : (abs128 x).U = x.S.natAbs := by
  have hlt := x.U_lt
  cases h : x.isNeg with
  | false => rw [abs128, if_neg (Bool.eq_false_iff.mp h), Value.S_of_nonneg h, Int.natAbs_natCast]
  | true =>
    have hge := x.isNeg_iff.mp h
    rw [abs128, if_pos h, neg128_U, Value.S_of_neg h]
    omega

theorem abs128_ne_zero (h : x ≠ Value.zero) : abs128 x ≠ Value.zero := by
  rwa [Ne, ← Value.U_eq_zero_iff, abs128_U, Int.natAbs_eq_zero, Value.S_eq_zero_iff]

/-- Settles O53: the negator's bits, read unsigned, are the magnitude. -/
theorem abs128IsMagnitude : Obligations.Abs128IsMagnitude :=
  fun _ => ⟨fun h => if_pos h, fun h => if_neg (Bool.eq_false_iff.mp h), abs128_U⟩

theorem neg_two_pow_le_S (x : Value) : -2 ^ 127 ≤ x.S := by
  simpa using x.bits.le_toInt

theorem S_lt_two_pow (x : Value) : x.S < 2 ^ 127 := by
  simpa using BitVec.toInt_lt (x := x.bits)

theorem natAbs_S_le (x : Value) : x.S.natAbs ≤ 2 ^ 127 := by
  have hge := neg_two_pow_le_S x
  have hlt := S_lt_two_pow x
  omega

@[simp] theorem min_S : Value.min.S = -2 ^ 127 := by decide

/-- Only `MIN` has the magnitude `2^127`. -/
theorem natAbs_S_lt (h : x ≠ Value.min) : x.S.natAbs < 2 ^ 127 := by
  have hge := neg_two_pow_le_S x
  have hlt := S_lt_two_pow x
  have hne : x.S ≠ -2 ^ 127 := fun heq => h (Value.ext_S (heq.trans min_S.symm))
  omega

/-! ## The engine on the magnitudes -/

theorem bits_divModU_fst (hb : b ≠ Value.zero) : (divModU a b).1.bits = a.bits / b.bits := by
  apply BitVec.eq_of_toNat_eq
  rw [BitVec.toNat_udiv, Value.toNat_bits, Value.toNat_bits, Value.toNat_bits, divModU_fst_U hb]

theorem bits_divModU_snd (hb : b ≠ Value.zero) : (divModU a b).2.bits = a.bits % b.bits := by
  apply BitVec.eq_of_toNat_eq
  rw [BitVec.toNat_umod, Value.toNat_bits, Value.toNat_bits, Value.toNat_bits, divModU_snd_U hb]

/-- The general branch of R175. -/
theorem bits_signed_quotient (hb : b ≠ Value.zero) :
    (if a.isNeg ^^ b.isNeg then neg128 (divModU (abs128 a) (abs128 b)).1
      else (divModU (abs128 a) (abs128 b)).1).bits = a.bits.sdiv b.bits := by
  rw [apply_ite Value.bits, bits_neg128, bits_divModU_fst (abs128_ne_zero hb), bits_abs128, bits_abs128,
    BitVec.sdiv_eq, Value.msb_bits, Value.msb_bits]
  cases a.isNeg <;> cases b.isNeg <;> rfl

/-- The general branch of R176. -/
theorem bits_signed_remainder (hb : b ≠ Value.zero) :
    (if a.isNeg then neg128 (divModU (abs128 a) (abs128 b)).2
      else (divModU (abs128 a) (abs128 b)).2).bits = a.bits.srem b.bits := by
  rw [apply_ite Value.bits, bits_neg128, bits_divModU_snd (abs128_ne_zero hb), bits_abs128, bits_abs128,
    BitVec.srem_eq, Value.msb_bits, Value.msb_bits]
  cases a.isNeg <;> cases b.isNeg <;> rfl

/-! ## DIVS (R175) -/

/-- The first two branches of R175. -/
theorem divs128_min (c : Config) (a : Value) :
    divs128 c a Value.min = if a = Value.min then Value.one else Value.zero := by
  by_cases ha : a = Value.min <;> simp [divs128, divsShortcut, ha]

/-- The third branch of R175. -/
theorem divs128_min_of_literalZero (hb : b ≠ Value.min) (hc : c.divsMinDividend = .literalZero) :
    divs128 c Value.min b = Value.zero := by
  simp [divs128, divsShortcut, hb, hc]

/-- The remaining branch of R175. -/
theorem divs128_general (hb : b ≠ Value.min)
    (hc : a = Value.min → c.divsMinDividend ≠ .literalZero) :
    divs128 c a b = if a.isNeg ^^ b.isNeg then neg128 (divModU (abs128 a) (abs128 b)).1
      else (divModU (abs128 a) (abs128 b)).1 := by
  have hnone : divsShortcut c a b = none := by
    rw [divsShortcut, if_neg (fun h => hb h.2), if_neg hb, if_neg (fun h => hc h.1 h.2)]
  rw [divs128, hnone]

/-- Unless the literal zero is answered, DIVS is the signed division of the words of 128 bits. -/
theorem bits_divs128 (hb : b ≠ Value.zero)
    (hc : a = Value.min → b ≠ Value.min → c.divsMinDividend ≠ .literalZero) :
    (divs128 c a b).bits = a.bits.sdiv b.bits := by
  by_cases hmin : b = Value.min
  case pos =>
    have hone : Value.one.bits = 1#128 := by decide
    have ha : a.bits = BitVec.intMin 128 ↔ a = Value.min :=
      ⟨fun h => Value.ext_bits (h.trans Value.bits_min.symm), fun h => h ▸ Value.bits_min⟩
    rw [hmin, divs128_min, Value.bits_min, BitVec.sdiv_intMin, apply_ite Value.bits, hone, Value.bits_zero]
    exact if_congr ha.symm rfl rfl
  case neg => rw [divs128_general hmin fun ha => hc ha hmin, bits_signed_quotient hb]

theorem divs128_S (hb : b ≠ Value.zero)
    (hc : a = Value.min → b ≠ Value.min → c.divsMinDividend ≠ .literalZero) :
    (divs128 c a b).S = Int.bmod (Int.tdiv a.S b.S) (2 ^ 128) := by
  rw [← Value.toInt_bits, bits_divs128 hb hc, BitVec.toInt_sdiv, Value.toInt_bits, Value.toInt_bits]

theorem divs128_eq_V (hb : b ≠ Value.zero)
    (hc : a = Value.min → b ≠ Value.min → c.divsMinDividend ≠ .literalZero) :
    divs128 c a b = Value.V (Int.tdiv a.S b.S) :=
  Value.ext_S (by rw [divs128_S hb hc, Value.S_V])

theorem ne_literalZero_of_truncating (h : c.divsMinDividend = .truncating) :
    c.divsMinDividend ≠ .literalZero := by
  rw [h]
  decide

/-- Settles O54: the branches in their order, the last of them and the truncating reading by `BitVec.sdiv`. -/
theorem divsTruncatesTowardZero : Obligations.DivsTruncatesTowardZero := by
  refine ⟨by decide, fun s hb => ⟨_, _, exec_divs.trans (State.completeDivision_of_ne _ _ hb), ?branches,
    fun hc => divs128_S hb fun _ _ => ne_literalZero_of_truncating hc⟩⟩
  split_ifs with hboth hmin hlit
  · obtain ⟨ha, hmin⟩ := hboth
    rw [ha, hmin, divs128_min, if_pos rfl]
  · rw [hmin, divs128_min, if_neg fun ha => hboth ⟨ha, hmin⟩]
  · obtain ⟨ha, hc⟩ := hlit
    rw [ha, divs128_min_of_literalZero hmin hc]
  · exact divs128_S hb fun ha _ hc => hlit ⟨ha, hc⟩

/-! ## REMS (R176) -/

/-- The first two branches of R176. -/
theorem rems128_min (a : Value) : rems128 a Value.min = if a = Value.min then Value.zero else a := by
  by_cases ha : a = Value.min <;> simp [rems128, remsShortcut, ha]

/-- The remaining branch of R176. -/
theorem rems128_general (hb : b ≠ Value.min) :
    rems128 a b = if a.isNeg then neg128 (divModU (abs128 a) (abs128 b)).2
      else (divModU (abs128 a) (abs128 b)).2 := by
  have hnone : remsShortcut a b = none := by
    rw [remsShortcut, if_neg (fun h => hb h.2), if_neg hb]
  rw [rems128, hnone]

/-- A number is its own remainder by one of greater magnitude. -/
theorem tmod_eq_self_of_natAbs_lt {m n : Int} (h : m.natAbs < n.natAbs) : m.tmod n = m := by
  have hquo : m.tdiv n = 0 := Int.natAbs_eq_zero.mp ((Int.natAbs_tdiv m n).trans (Nat.div_eq_of_lt h))
  simpa [hquo] using Int.tdiv_mul_add_tmod m n

/-- The truncating remainder, which never wraps. -/
theorem rems128_S (hb : b ≠ Value.zero) : (rems128 a b).S = Int.tmod a.S b.S := by
  by_cases hmin : b = Value.min
  case pos =>
    rw [hmin, rems128_min]
    split
    case isTrue ha => rw [ha, Int.tmod_self, Value.zero_S]
    case isFalse ha => exact (tmod_eq_self_of_natAbs_lt (by simpa using natAbs_S_lt ha)).symm
  case neg =>
    rw [rems128_general hmin, ← Value.toInt_bits, bits_signed_remainder hb, BitVec.toInt_srem, Value.toInt_bits,
      Value.toInt_bits]

theorem rems128_eq_V (hb : b ≠ Value.zero) : rems128 a b = Value.V (Int.tmod a.S b.S) := by
  rw [← rems128_S hb, Value.V_S]

theorem natAbs_rems128_S_lt (hb : b ≠ Value.zero) : (rems128 a b).S.natAbs < b.S.natAbs := by
  rw [rems128_S hb, Int.natAbs_tmod]
  exact Nat.mod_lt _ (Int.natAbs_pos.mpr (mt Value.S_eq_zero_iff.mp hb))

theorem bits_rems128 (hb : b ≠ Value.zero) : (rems128 a b).bits = a.bits.srem b.bits := by
  apply BitVec.eq_of_toInt_eq
  rw [BitVec.toInt_srem, Value.toInt_bits, Value.toInt_bits, Value.toInt_bits, rems128_S hb]

theorem rems128_isNeg (hb : b ≠ Value.zero) (h : rems128 a b ≠ Value.zero) :
    (rems128 a b).isNeg = a.isNeg := by
  have hne : (rems128 a b).bits ≠ 0 := fun hzero => h (Value.ext_bits (hzero.trans Value.bits_zero.symm))
  rw [bits_rems128 hb] at hne
  rw [← Value.msb_bits, bits_rems128 hb, BitVec.msb_srem, decide_eq_true hne, Bool.and_true, Value.msb_bits]

theorem neg128_ne_zero (h : b ≠ Value.zero) : neg128 b ≠ Value.zero := by
  have hpos := Value.U_pos h
  have hlt := b.U_lt
  rw [Ne, ← Value.U_eq_zero_iff, neg128_U]
  omega

/-- The divisor's sign does not matter (R176). -/
theorem rems128_neg128_right (hb : b ≠ Value.zero) : rems128 a (neg128 b) = rems128 a b := by
  by_cases hmin : b = Value.min
  case pos => rw [hmin, neg128_min]
  case neg => rw [rems128_eq_V hb, rems128_eq_V (neg128_ne_zero hb), neg128_S hmin, Int.tmod_neg]

/-- Settles O55: each clause is one of the laws of the truncating remainder. -/
theorem remsHasSignOfDividend : Obligations.RemsHasSignOfDividend := by
  refine ⟨by decide, fun s hb => ⟨_, _, exec_rems.trans (State.completeDivision_of_ne _ _ hb), rems128_S hb,
    natAbs_rems128_S_lt hb, or_iff_not_imp_left.mpr (rems128_isNeg hb), rems128_neg128_right hb, ?minDivisor⟩⟩
  intro hmin ha
  rw [hmin, rems128_min, if_neg ha]

/-! ## The division identities (R177) -/

theorem unsigned_division_identity (hb : b ≠ Value.zero) :
    add128 (mulu128 (divModU a b).1 b) (divModU a b).2 = a := by
  apply Value.ext_U
  rw [add128_U, mulu128_U, divModU_fst_U hb, divModU_snd_U hb, Nat.mod_add_mod, Nat.div_add_mod',
    Nat.mod_eq_of_lt a.U_lt]

/-- Wrapped or not, the truncated quotient leaves the remainder. -/
theorem signed_division_identity (hb : b ≠ Value.zero)
    (hc : a = Value.min → b ≠ Value.min → c.divsMinDividend ≠ .literalZero) :
    add128 (muls128 (divs128 c a b) b) (rems128 a b) = a := by
  calc add128 (muls128 (divs128 c a b) b) (rems128 a b)
      = add128 (mulu128 (Value.V (Int.tdiv a.S b.S)) (Value.V b.S)) (Value.V (Int.tmod a.S b.S)) := by
        rw [muls128_eq_mulu128, divs128_eq_V hb hc, rems128_eq_V hb, Value.V_S]
    _ = Value.V (Int.tdiv a.S b.S * b.S + Int.tmod a.S b.S) := by rw [V_add, V_mul]
    _ = a := by rw [Int.tdiv_mul_add_tmod, Value.V_S]

/-- The quotient zero leaves the remainder alone. -/
theorem add128_zero_muls128 : add128 (muls128 Value.zero b) x = x :=
  Value.ext_bits (by simp)

/-- No remainder reaches the magnitude of `MIN`. -/
theorem rems128_ne_min (hb : b ≠ Value.zero) : rems128 a b ≠ Value.min := by
  intro h
  have hlt := natAbs_rems128_S_lt (a := a) hb
  rw [h] at hlt
  exact absurd (hlt.trans_le (natAbs_S_le b)) (by decide)

/-- The two readings of R180 differ: with the quotient zero the identity would make the remainder `MIN`. -/
theorem divs128_truncating_min_ne_zero (hb : b ≠ Value.zero) :
    divs128 ⟨.truncating⟩ Value.min b ≠ Value.zero := by
  intro h
  have hid := signed_division_identity (a := Value.min) (c := ⟨.truncating⟩) hb fun _ _ => by decide
  rw [h, add128_zero_muls128] at hid
  exact rems128_ne_min hb hid

/-- Settles O56: outside the band DIVS truncates; in it the literal zero would make the remainder `MIN`. -/
theorem quotientTimesDivisorPlusRemainder : Obligations.QuotientTimesDivisorPlusRemainder := by
  refine fun a b hb => ⟨unsigned_division_identity hb, ?remainder,
    signed_division_identity hb fun _ _ => by decide, ⟨?fails, ?holds⟩, fun _ => rems128_ne_min hb⟩
  case remainder =>
    rw [ltu128_iff, divModU_snd_U hb]
    exact Nat.mod_lt _ (Value.U_pos hb)
  case fails =>
    rintro hid ⟨rfl, hmin⟩
    rw [divs128_min_of_literalZero hmin rfl, add128_zero_muls128] at hid
    exact rems128_ne_min hb hid
  case holds => exact fun h => signed_division_identity hb fun ha hmin => absurd ⟨ha, hmin⟩ h

/-! ## The testable properties (R178) -/

/-- For a dividend other than `MIN` the parameter is not looked at. -/
theorem divs128_eq_V_of_ne_min (ha : a ≠ Value.min) (hb : b ≠ Value.zero) :
    divs128 c a b = Value.V (Int.tdiv a.S b.S) :=
  divs128_eq_V hb fun h => absurd h ha

theorem rems128_neg128_left (ha : a ≠ Value.min) (hb : b ≠ Value.zero) :
    rems128 (neg128 a) b = neg128 (rems128 a b) := by
  rw [rems128_eq_V hb, rems128_eq_V hb, neg128_S ha, Int.neg_tmod, V_neg]

/-- Settles O57: the values are those of the integer quotients and remainders. -/
theorem divisionEdgeCases : Obligations.DivisionEdgeCases := by
  refine ⟨fun c => ⟨divs128_min c _, rems128_min _, ?_, ?_, ?_, ?_⟩, fun x hx => ?minDivisor,
    fun b hb hmin => ⟨divs128_min_of_literalZero hmin rfl, divs128_truncating_min_ne_zero hb⟩,
    fun a b ha hb => rems128_neg128_left ?positive hb, ?scenario⟩
  case minDivisor => rw [rems128_min, if_neg hx]
  case scenario =>
    rw [rems128_eq_V (by decide)]
    decide
  case positive =>
    rintro rfl
    exact absurd ha (by decide)
  all_goals
    rw [divs128_eq_V_of_ne_min (by decide) (by decide)]
    decide

/-! ## The parameter (R180) -/

theorem divs128_config_congr (hb : b ≠ Value.zero) (h : a ≠ Value.min ∨ b = Value.min) :
    divs128 c a b = divs128 c' a b := by
  have hband (ha : a = Value.min) (hmin : b ≠ Value.min) : False := h.elim (· ha) hmin
  rw [divs128_eq_V hb fun ha hmin => (hband ha hmin).elim, divs128_eq_V hb fun ha hmin => (hband ha hmin).elim]

/-- Outside the contested band no result reads the parameter. -/
theorem exec_config_congr (c : Config) (hi : i ≠ .divs ∨ s.aQ ≠ Value.min ∨ s.bQ = Value.min)
    (h : exec i s = .next t) : ∃ u, exec i { s with config := c } = .next u ∧ u.rQ = t.rQ := by
  cases i
  case divs =>
    obtain ⟨hb, rfl⟩ := State.completeDivision_eq_next.mp h
    exact ⟨_, State.completeDivision_of_ne _ _ hb, divs128_config_congr hb (hi.resolve_left (· rfl))⟩
  case divu | remu | rems =>
    obtain ⟨hb, rfl⟩ := State.completeDivision_eq_next.mp h
    exact ⟨_, State.completeDivision_of_ne _ _ hb, rfl⟩
  all_goals
    injection h with h
    subst h
    exact ⟨_, rfl, rfl⟩

/-- Settles O59: in the band the truncating quotient is not zero, the literal one is. -/
theorem parameterDecidesOnlyMinDividend : Obligations.ParameterDecidesOnlyMinDividend := by
  refine ⟨fun i s t c => exec_config_congr c, fun s ha hmin hb => ?band⟩
  have hlit : divs128 ⟨.literalZero⟩ s.aQ s.bQ = Value.zero := ha ▸ divs128_min_of_literalZero hmin rfl
  refine ⟨_, _, exec_divs.trans (State.completeDivision_of_ne _ _ hb),
    exec_divs.trans (State.completeDivision_of_ne _ _ hb), ?_, hlit, ?_⟩
  · exact ha ▸ divs128_S hb fun _ _ => ne_literalZero_of_truncating rfl
  · exact hlit.symm ▸ ha ▸ divs128_truncating_min_ne_zero hb

end Sys2Proof.Machine
end

section
/-!
Proof of the statement on the order of the events (60_exceptions.md). R204's precedence is the order of the tests in
`step`: `rst`, then at ACCEPT the command word alone, and the operands only at EXECUTE.
-/

namespace Sys2Proof.Machine

variable {s : State} {i : Instr} {cw : BitVec 16}

/-! ## What a step answers under `rst` and in BUSY -/

theorem step_of_rst (hr : s.wires.rst = true) : step s = .next s.resetUnit.advance := by
  simp [step, hr]

theorem step_of_busy (hr : s.wires.rst = false) (hp : s.phase = .busy) (hd : decode s.cwQ = .ok i) :
    step s = advanceNext (exec i s) := by
  simp [step, busyStep, State.inFlight, hr, hp, hd]

theorem exec_of_zero_divisor (hi : isDivision i = true) (hb : s.bQ = Value.zero) :
    exec i s = .fault .divisionByZero :=
  (divisionNeedsNonzeroDivisor i hi s).1 (Value.eq_iff_words.mp hb)

theorem decode_ne_ok_of_not_legalWord (h : legalWord cw = false) (i : Instr) : decode cw ≠ .ok i := fun hd =>
  absurd ((exists_decode_eq_ok_iff_legalWord cw).mp ⟨i, hd⟩) (Bool.eq_false_iff.mp h)

/-- Settles O12: by what ACCEPT answers on a word (O7), which words decode (O4), and a division's test (O13). -/
theorem resetThenRefusalThenFault : Obligations.ResetThenRefusalThenFault := by
  refine ⟨fun s hr => ?reset, fun s cw a b hr hp ho hl => ?reserved, fun s cw a b hr hp ho hl => ?legal,
    fun s i hr hp hd hi hb => ?zeroDivisor⟩
  case reset => exact ⟨_, step_of_rst hr, by simp⟩
  case reserved =>
    obtain ⟨hrefuse, -⟩ := (acceptSamplesOfferedCommand s hr hp).1 cw a b ho
    exact hrefuse (decode_ne_ok_of_not_legalWord hl)
  case legal =>
    obtain ⟨i, hd⟩ := (exists_decode_eq_ok_iff_legalWord cw).mpr hl
    obtain ⟨-, haccept⟩ := (acceptSamplesOfferedCommand s hr hp).1 cw a b ho
    obtain ⟨t, hstep, hbusy, -⟩ := haccept i hd
    exact ⟨t, hstep, hbusy⟩
  case zeroDivisor => rw [step_of_busy hr hp hd, exec_of_zero_divisor hi hb, advanceNext_fault]

end Sys2Proof.Machine
end

section
/-!
Proofs of the statements on the encoder and the decoder (30_encoding.md R58). A word is its fields, so the two
directions of the round trip are about the opcode byte and the amount alone.
-/

namespace Sys2Proof

variable {i : Instr} {opc : BitVec 8} {n : BitVec 7}

/-! ## The fields of an instruction's word -/

theorem encode_eq_wordOfFields (i : Instr) : encode i = wordOfFields (amount i, opcode i) := rfl

/-- The opcode map reads back the byte and the amount that the encoder writes. -/
theorem instrOfOpcode_opcode (i : Instr) : instrOfOpcode (opcode i) (amount i) = some i := by
  cases i <;> rfl

/-- Only the shifts, which are family 4, carry an amount (R50). -/
theorem opcode_family_eq_four_or_amount_eq_zero (i : Instr) :
    (opcode i).toNat / 16 = 4 ∨ amount i = 0 := by
  cases i
  case shl | shrl | shra => exact .inl (by rw [opcode]; rfl)
  all_goals exact .inr rfl

/-- Settles O2: none of the decoder's three tests rejects the word, and the opcode map gives the instruction. -/
theorem decodeInvertsEncode : Obligations.DecodeInvertsEncode := by
  intro i
  rw [encode_eq_wordOfFields, decode_eq_ok_iff, fieldFam_eq_four_iff_fieldOpc, fieldZ_wordOfFields,
    fieldOpc_wordOfFields, fieldN_wordOfFields]
  exact ⟨rfl, instrOfOpcode_opcode i, opcode_family_eq_four_or_amount_eq_zero i⟩

/-! ## The opcode map read backwards -/

theorem opcode_of_instrOfOpcode (h : instrOfOpcode opc n = some i) : opcode i = opc := by
  apply BitVec.eq_of_toNat_eq
  unfold instrOfOpcode at h
  split at h
  case h_30 => cases h
  all_goals
    next hopc =>
    cases h
    exact hopc.symm

/-- A shift takes the amount field as its amount; every other command has none. -/
theorem amount_of_instrOfOpcode (h : instrOfOpcode opc n = some i) :
    amount i = if opc.toNat / 16 = 4 then n else 0 := by
  have hopc := opcode_of_instrOfOpcode h
  subst hopc
  cases i
  case shl | shrl | shra =>
    cases h
    exact (if_pos (by rw [opcode]; rfl)).symm
  all_goals rfl

/-- Settles O3: the byte names the command, and the amount is the command's own or is 0. -/
theorem encodeInvertsDecode : Obligations.EncodeInvertsDecode := by
  intro cw i hd
  obtain ⟨hz, hi, hshift⟩ := decode_eq_ok_iff.mp hd
  rw [fieldFam_eq_four_iff_fieldOpc] at hshift
  have hamount : amount i = fieldN cw := by
    rw [amount_of_instrOfOpcode hi]
    split
    case isTrue => rfl
    case isFalse hfam => exact (hshift.resolve_left hfam).symm
  rw [encode_eq_wordOfFields, hamount, opcode_of_instrOfOpcode hi, wordOfFields_fields hz]

/-- Settles O1: the decoder evaluated on the thirteen words. -/
theorem knownWordsDecode : Obligations.KnownWordsDecode := by
  unfold Obligations.KnownWordsDecode
  decide

end Sys2Proof
end

section
/-!
Proofs of the statements on what an instruction may do (10_state.md R33, R35; 60_exceptions.md R200, R201). A division
ends in the test for a zero divisor; every other instruction completes, and writes the result and the phase only. What
an instruction reads is said once for each group, as a function that its result is of.
-/

namespace Sys2Proof.Machine

variable {s t : State} {i : Instr}

/-! ## Which instructions complete -/

/-- What is no division completes, and writes no working register. -/
theorem exec_of_not_isDivision (h : isDivision i = false) : ∃ r, exec i s = .next (s.complete r) := by
  cases i
  case divu | remu | divs | rems => cases h
  all_goals exact ⟨_, rfl⟩

theorem precondition_of_not_isDivision (h : isDivision i = false) : Precondition i s := fun hd =>
  absurd hd (Bool.eq_false_iff.mp h)

theorem exec_of_not_precondition (h : ¬Precondition i s) : exec i s = .fault .divisionByZero := by
  obtain ⟨hi, hb⟩ := Classical.not_imp.mp h
  exact exec_of_zero_divisor hi (not_not.mp hb)

/-- An instruction whose precondition holds completes (R226). -/
theorem exec_of_precondition (h : Precondition i s) : ∃ t, exec i s = .next t := by
  cases hi : isDivision i with
  | false =>
    obtain ⟨r, hexec⟩ := exec_of_not_isDivision (s := s) hi
    exact ⟨_, hexec⟩
  | true =>
    obtain ⟨g, r, hexec⟩ := exec_of_isDivision (s := s) hi
    exact ⟨_, hexec.trans (State.completeDivision_of_ne g r (h hi))⟩

/-- Settles O14: by the precondition, under which exec answers a next state and without which it faults. -/
theorem onlyDivisionByZeroStops : Obligations.OnlyDivisionByZeroStops := by
  intro i s
  by_cases h : Precondition i s
  case pos =>
    obtain ⟨t, ht⟩ := exec_of_precondition h
    exact ⟨iff_of_true ⟨t, ht⟩ h, by simp [ht, h], by simp [ht]⟩
  case neg =>
    have hf := exec_of_not_precondition h
    exact ⟨by simp [hf, h], iff_of_true ⟨_, hf⟩ h, by simp [hf]⟩

theorem exec_ne_refused (i : Instr) (s : State) (r : Refusal) : exec i s ≠ .refused r := by
  obtain ⟨-, -, hne⟩ := onlyDivisionByZeroStops i s
  exact hne r

/-! ## The frame -/

theorem exec_divRegs (h : exec i s = .next t) (hi : isDivision i = false) : t.divRegs = s.divRegs := by
  obtain ⟨r, hexec⟩ := exec_of_not_isDivision (s := s) hi
  obtain rfl := Host.Outcome.next.inj (hexec.symm.trans h)
  rfl

/-- Settles O15: whatever completes has written result, phase and working registers at most. -/
theorem execChangesOnlyResultAndPhase : Obligations.ExecChangesOnlyResultAndPhase := by
  intro i s t h
  have hdiv := exec_divRegs h
  obtain ⟨g, r, rfl⟩ := exec_eq_next h
  exact ⟨rfl, rfl, rfl, rfl, rfl, rfl, rfl, rfl, rfl, rfl, rfl, hdiv⟩

/-! ## What an instruction reads (30_encoding.md R53) -/

/-- The one-operand commands and the shifts read `A` only. -/
theorem exec_reads_a_only
    (h : i ∈ [.zext64, .sext64, .not, .neg] ∨ ∃ n, i ∈ [.shl n, .shrl n, .shra n]) :
    ∃ f : Value → Value, ∀ s, exec i s = .next (s.complete (f s.aQ)) := by
  simp only [List.mem_cons, List.not_mem_nil, or_false] at h
  obtain (rfl | rfl | rfl | rfl) | ⟨n, rfl | rfl | rfl⟩ := h
  · exact ⟨zext64, fun _ => exec_zext64⟩
  · exact ⟨sext64, fun _ => exec_sext64⟩
  · exact ⟨not128, fun _ => exec_not⟩
  · exact ⟨neg128, fun _ => exec_neg⟩
  · exact ⟨(shl128 · n.toNat), fun _ => exec_shl n⟩
  · exact ⟨(shrl128 · n.toNat), fun _ => exec_shrl n⟩
  · exact ⟨(shra128 · n.toNat), fun _ => exec_shra n⟩

/-- The 64-bit multiplications read the two low words only. -/
theorem exec_reads_low_words_only (h : i ∈ [.mul64u, .mul64s]) :
    ∃ f : Word → Word → Value, ∀ s, exec i s = .next (s.complete (f s.aQ.low s.bQ.low)) := by
  simp only [List.mem_cons, List.not_mem_nil, or_false] at h
  obtain rfl | rfl := h
  · exact ⟨mul64u, fun _ => exec_mul64u⟩
  · exact ⟨mul64s, fun _ => exec_mul64s⟩

/-- Of `A` the extensions and the 64-bit multiplications read the low word only. -/
theorem exec_reads_a_low_only (h : i ∈ [.zext64, .sext64, .mul64u, .mul64s]) :
    ∃ f : Word → Value → Value, ∀ s, exec i s = .next (s.complete (f s.aQ.low s.bQ)) := by
  simp only [List.mem_cons, List.not_mem_nil, or_false] at h
  obtain rfl | rfl | rfl | rfl := h
  · exact ⟨fun low _ => zext64 ⟨0, low⟩, fun _ => rfl⟩
  · exact ⟨fun low _ => sext64 ⟨0, low⟩, fun _ => rfl⟩
  · exact ⟨fun low b => mul64u low b.low, fun _ => rfl⟩
  · exact ⟨fun low b => mul64s low b.low, fun _ => rfl⟩

/-- Settles O17: in each group the result is a function of the parts that are read. -/
theorem unreadOperandPartsIgnored : Obligations.UnreadOperandPartsIgnored := by
  refine fun s v w => ⟨fun i hi => ?_, fun i hi => ?_, fun i hi => ?_⟩
  · obtain ⟨f, hf⟩ := exec_reads_a_only hi
    exact ⟨_, _, hf _, hf _, rfl⟩
  · obtain ⟨f, hf⟩ := exec_reads_a_low_only hi
    exact ⟨_, _, hf _, hf _, rfl⟩
  · obtain ⟨f, hf⟩ := exec_reads_low_words_only hi
    exact ⟨_, _, hf _, hf _, rfl⟩

/-- The bitwise commands do the same to the high words and to the low words (R104). -/
theorem exec_bitwise_wordwise (h : i ∈ [.and, .or, .xor, .not]) :
    ∃ f : Word → Word → Word, ∀ s,
      exec i s = .next (s.complete ⟨f s.aQ.high s.bQ.high, f s.aQ.low s.bQ.low⟩) := by
  simp only [List.mem_cons, List.not_mem_nil, or_false] at h
  obtain rfl | rfl | rfl | rfl := h
  · exact ⟨(· &&& ·), fun _ => exec_and⟩
  · exact ⟨(· ||| ·), fun _ => exec_or⟩
  · exact ⟨(· ^^^ ·), fun _ => exec_xor⟩
  · exact ⟨fun x _ => ~~~x, fun _ => exec_not⟩

/-- Settles O34: each word of the result is a function of the operands' words in its place. -/
theorem bitwiseWordsAreIndependent : Obligations.BitwiseWordsAreIndependent := by
  intro i hi s t
  obtain ⟨f, hf⟩ := exec_bitwise_wordwise hi
  exact ⟨_, _, hf s, hf t, congrArg₂ f, congrArg₂ f⟩

end Sys2Proof.Machine
end

section
/-!
Proof of the statement on the sign (41_compare.md section 4, R91). Against `ZERO` the signed comparison asks for the
sign of the high word and, where that word is 0, for the sign of the low word.
-/

namespace Sys2Proof

variable {x : Value}

theorem Value.isNeg_eq_bit_127 : x.isNeg = x.bit 127 := BitVec.msb_eq_getLsbD_last x.high

theorem msb_iff_toInt_neg {n : Nat} {w : BitVec n} : w.msb = true ↔ w.toInt < 0 := by
  rw [BitVec.msb_eq_toInt, decide_eq_true_iff]

theorem Value.isNeg_iff_S_neg : x.isNeg = true ↔ x.S < 0 := by
  rw [← Value.msb_bits, ← Value.toInt_bits, msb_iff_toInt_neg]

end Sys2Proof

namespace Sys2Proof.Machine

variable {x : Value}

/-- `LTS(x, ZERO)` by words: under a high word of 0 the low word is read as a signed one. -/
theorem lts128_zero_iff :
    lts128 x Value.zero = true ↔ x.high.toInt < 0 ∨ (x.high = 0 ∧ x.low.toInt < 0) :=
  lts128_iff_words

/-- Settles O32: each word is negative when its top bit is set, and the value when its high word is. -/
theorem signIsBit127NotLessThanZero : Obligations.SignIsBit127NotLessThanZero := by
  refine fun x => ⟨by rw [Value.isNeg_eq_bit_127], Value.isNeg_iff_S_neg, ?_⟩
  rw [lts128_zero_iff, ← msb_iff_toInt_neg, ← msb_iff_toInt_neg, BitVec.msb_eq_getLsbD_last (x := x.low),
    Value.isNeg]

end Sys2Proof.Machine
end

section
/-!
Proofs of the statements on the steps (10_state.md section 4, 70_reset_and_hazards.md). A step is an event of the block
and then the host's part, as `step_eq_next` says. So what every step keeps is proved of the events, case by case, and
of the host's part.
-/

namespace Sys2Proof.Machine

variable {s t u : State} {i : Instr} {o : Offer}

/-! ## The events of the block -/

/-- What the block can do in a step, with the state it leaves for the host's part. Of EXECUTE it says only what every
instruction shares, so the result and the working registers are any. -/
inductive BlockEvent (s : State) : State → Prop
  | reset (hr : s.wires.rst = true) : BlockEvent s s.resetUnit
  | wait : BlockEvent s s
  | accept {o : Offer} (hr : s.wires.rst = false) (hp : s.phase = .idle) (ho : s.cmdPort = some o) :
      BlockEvent s (s.accept o)
  | execute {g : DivRegs} {r : Value} (hp : s.phase = .busy) : BlockEvent s ((s.setDivRegs g).complete r)
  | deliver (hr : s.wires.rst = false) (hp : s.phase = .resp) : BlockEvent s s.deliver

/-- A step is an event of the block, then the host's part. -/
theorem blockEvent_of_step (h : step s = .next t) : ∃ u, BlockEvent s u ∧ t = u.advance := by
  obtain ⟨hr, ht⟩ | ⟨-, -, -, ht⟩ | ⟨hr, hp, o, i, ho, -, ht⟩ | ⟨-, hp, i, u, -, he, ht⟩ | ⟨hr, hp, -, ht⟩ |
    ⟨-, -, -, ht⟩ := step_eq_next h
  · exact ⟨_, .reset hr, ht⟩
  · exact ⟨_, .wait, ht⟩
  · exact ⟨_, .accept hr hp ho, ht⟩
  · obtain ⟨g, r, rfl⟩ := exec_eq_next he
    exact ⟨_, .execute hp, ht⟩
  · exact ⟨_, .deliver hr hp, ht⟩
  · exact ⟨_, .wait, ht⟩

/-! ## The counts of commands over the events -/

theorem State.acceptedCount_of_idle (h : s.phase = .idle) : s.acceptedCount = s.responses.length := by
  simp [State.acceptedCount, State.inFlightCount, h]

theorem State.acceptedCount_of_not_idle (h : s.phase ≠ .idle) :
    s.acceptedCount = s.responses.length + 1 := by
  simp [State.acceptedCount, State.inFlightCount, h]

/-- RESET makes the command in flight a finished one (R221). -/
theorem State.resetUnit_responses_eq_replicate :
    s.resetUnit.responses = s.responses ++ List.replicate s.inFlightCount none := by
  by_cases h : s.phase = .idle <;> simp [State.inFlightCount, h]

@[simp] theorem State.resetUnit_acceptedCount : s.resetUnit.acceptedCount = s.acceptedCount := by
  rw [State.acceptedCount_of_idle s.resetUnit_phase, State.resetUnit_responses_eq_replicate]
  simp [State.acceptedCount]

/-- ACCEPT puts a command in flight. -/
theorem State.accept_acceptedCount (h : s.phase = .idle) :
    (s.accept o).acceptedCount = s.acceptedCount + 1 := by
  rw [State.acceptedCount_of_idle h, State.acceptedCount_of_not_idle (by simp), State.accept_responses]

/-- EXECUTE leaves the command in flight. -/
theorem State.complete_acceptedCount {g : DivRegs} {r : Value} (h : s.phase = .busy) :
    ((s.setDivRegs g).complete r).acceptedCount = s.acceptedCount := by
  rw [State.acceptedCount_of_not_idle (by simp), State.acceptedCount_of_not_idle (by simp [h])]
  rfl

/-- DELIVER makes the command in flight a finished one (R34). -/
theorem State.deliver_acceptedCount (h : s.phase = .resp) : s.deliver.acceptedCount = s.acceptedCount := by
  rw [State.acceptedCount_of_idle s.deliver_phase, State.acceptedCount_of_not_idle (by simp [h])]
  simp

/-- Commands are handed over and never lost: ACCEPT moves one from the waiting to the accepted ones, and the other
events keep both counts. -/
theorem BlockEvent.counts (h : BlockEvent s u) :
    u.acceptedCount + u.waitingCount = s.acceptedCount + s.waitingCount := by
  cases h with
  | reset => rw [State.resetUnit_acceptedCount, State.resetUnit_waitingCount]
  | wait => rfl
  | accept hr hp ho =>
    have hwait := State.accept_waitingCount ho
    rw [State.accept_acceptedCount hp]
    omega
  | execute hp => rw [State.complete_acceptedCount hp, State.complete_waitingCount, State.setDivRegs_waitingCount]
  | deliver hr hp => rw [State.deliver_acceptedCount hp, State.deliver_waitingCount]

/-! ## The handshake outputs -/

/-- Settles O6: the outputs are defined by the phase and `rst`. -/
theorem outputsFollowPhase : Obligations.OutputsFollowPhase := by
  intro s
  refine ⟨by simp [State.cmdReady], by simp [State.rspValid], fun h => ?_, State.rspR_of_phase_ne⟩
  simp [State.rspR, State.rspValid, h]

/-- Settles O5: the fields of the state after reset. -/
theorem resetIsReady : Obligations.ResetIsReady := ⟨rfl, rfl, rfl⟩

/-! ## Single steps -/

/-- Settles O8: the step in BUSY is exec, then what `advanceNext` makes of its answer. -/
theorem stepRunsInstructionInFlight : Obligations.StepRunsInstructionInFlight := by
  intro s i hr hp hd
  rw [step_of_busy hr hp hd]
  refine ⟨fun t h => ?_, fun f h => ?_, fun r h => ?_⟩
  · rw [h, advanceNext_next]
  · rw [h, advanceNext_fault]
  · rw [h, advanceNext_refused]

theorem State.respStep_of_not_ready (h : s.wires.rspReady = false) : s.respStep = s := by
  simp [State.respStep, h]

/-- Settles O10: in both phases the block's own part of the step leaves the state. -/
theorem blockWaitsForHost : Obligations.BlockWaitsForHost := by
  refine fun s hr => ⟨fun hp ho => ?idle, fun hp hy => ?resp⟩
  case idle => rw [step_of_idle hr hp, State.idleStep_of_none ho, advanceNext_next]
  case resp => rw [step_of_resp hr hp, State.respStep_of_not_ready hy]

/-- Settles O11: the step is RESET and then the host's part, which leaves the phase, the record and an offer that
stands. -/
theorem resetAbandonsCommandInFlight : Obligations.ResetAbandonsCommandInFlight := by
  intro s hr
  refine ⟨by simp [State.cmdReady, hr], s.resetUnit.advance, step_of_rst hr, by simp, by simp,
    fun o ho => State.advance_cmdPort_of_some _ ho, ?record, by simp [State.rspValid], ?notReady, ?ready⟩
  case record => rw [State.advance_responses, State.resetUnit_responses_eq_replicate]
  case notReady => exact fun h => by simp [State.cmdReady, h]
  case ready => exact fun h => by simp [State.cmdReady, h]

/-! ## What every step keeps -/

/-- Settles O21: no event writes the parameter, and neither does the host. -/
theorem parameterFixedForRun : Obligations.ParameterFixedForRun := by
  intro s t h
  obtain ⟨u, hu, rfl⟩ := blockEvent_of_step h
  rw [State.advance_config]
  cases hu <;> rfl

/-- An offer ends by its transfer only (R38). -/
theorem BlockEvent.offer (h : BlockEvent s u) (ho : s.cmdPort = some o) :
    u.cmdPort = some o ∨
      (s.wires.rst = false ∧ s.phase = .idle ∧ u.phase = .busy ∧ u.cwQ = o.cw ∧ u.aQ = o.a ∧ u.bQ = o.b) := by
  cases h with
  | accept hr hp ho' =>
    obtain rfl := Option.some.inj (ho.symm.trans ho')
    exact .inr ⟨hr, hp, rfl, rfl, rfl, rfl⟩
  | reset | wait | execute | deliver => exact .inl ho

/-- The record grows at its end, by the response that DELIVER hands over or the none entry of a RESET. -/
theorem BlockEvent.responses (h : BlockEvent s u) :
    u.responses = s.responses ∨
      (s.wires.rst = false ∧ s.phase = .resp ∧ u.responses = s.responses ++ [some s.rQ]) ∨
      (s.wires.rst = true ∧ s.phase ≠ .idle ∧ u.responses = s.responses ++ [none]) := by
  cases h with
  | reset hr =>
    by_cases hp : s.phase = .idle
    · exact .inl (if_pos hp)
    · exact .inr (.inr ⟨hr, hp, if_neg hp⟩)
  | deliver hr hp => exact .inr (.inl ⟨hr, hp, rfl⟩)
  | wait | accept | execute => exact .inl rfl

/-- Settles O22: over the events, clause by clause; the host's part keeps the counts, an offer that stands, the latches
and the record. -/
theorem commandsNeitherLostNorDuplicated : Obligations.CommandsNeitherLostNorDuplicated := by
  intro s t h
  obtain ⟨u, hu, rfl⟩ := blockEvent_of_step h
  simp only [State.advance_acceptedCount, State.advance_waitingCount, State.advance_phase, State.advance_cwQ,
    State.advance_aQ, State.advance_bQ, State.advance_responses]
  exact ⟨hu.counts, fun o ho => (hu.offer ho).imp_left (State.advance_cmdPort_of_some u), hu.responses⟩

/-! ## The invariant of a run (R38, R59) -/

/-- Settles O18: nothing is in flight, offered or to come. -/
theorem runInvariantHoldsAtReset : Obligations.RunInvariantHoldsAtReset :=
  ⟨nofun, nofun, rfl, rfl⟩

/-- An event that does not end in BUSY and leaves the port, the stream and the number of accepted commands. -/
theorem RunInv.of_not_busy (h : RunInv s) (hp : t.phase ≠ .busy) (hport : t.cmdPort = s.cmdPort)
    (hstream : t.stream = s.stream) (hcount : t.acceptedCount = s.acceptedCount) : RunInv t := by
  obtain ⟨-, hoffer, hlegal, hwf⟩ := h
  have hpos : t.streamPosition = s.streamPosition := by simp only [State.streamPosition, hport, hcount]
  exact ⟨fun hb => absurd hb hp, hport ▸ hoffer, hstream ▸ hlegal, hpos ▸ hstream ▸ hwf⟩

/-- ACCEPT: the word on the port comes into flight, and the numbering of the stream goes on. -/
theorem RunInv.accept (h : RunInv s) (hp : s.phase = .idle) (ho : s.cmdPort = some o) :
    RunInv (s.accept o) := by
  obtain ⟨-, hoffer, hlegal, hwf⟩ := h
  have hpos : (s.accept o).streamPosition = s.streamPosition := by
    simp [State.streamPosition, State.accept_acceptedCount hp, ho]
  exact ⟨fun _ => hoffer o ho, nofun, hlegal, hpos ▸ hwf⟩

theorem RunInv.setWires (h : RunInv s) : RunInv s.setWires := by
  simpa [RunInv, State.streamPosition, State.acceptedCount, State.inFlightCount] using h

/-- The host's next command comes from the stream to the port with its number. -/
theorem RunInv.present (h : RunInv s) : RunInv s.present := by
  obtain hsame | ⟨-, hport, o, ho, hnew⟩ := s.present_cases
  · rwa [hsame]
  · obtain ⟨c, cs, hc, hcw, -, -⟩ := State.nextOffer_eq_some s ho
    obtain ⟨hbusy, -, hlegal, hwf⟩ := h
    rw [hc] at hlegal hwf
    simp only [streamLegal, List.all_cons, Bool.and_eq_true] at hlegal
    simp only [streamWellFormedFrom, Bool.and_eq_true] at hwf
    obtain ⟨hword, hlegal⟩ := hlegal
    obtain ⟨-, hwf⟩ := hwf
    have hpos : s.present.streamPosition = s.streamPosition + 1 := by
      simp [State.streamPosition, State.acceptedCount, State.inFlightCount, hnew, hport]
    rw [RunInv, hpos, hnew, hc]
    refine ⟨hbusy, fun o' ho' => ?_, hlegal, hwf⟩
    obtain rfl := Option.some.inj ho'
    rwa [← hcw]

theorem RunInv.advance (h : RunInv s) : RunInv s.advance := h.setWires.present

theorem BlockEvent.runInv (hu : BlockEvent s u) (h : RunInv s) : RunInv u := by
  cases hu with
  | reset => exact h.of_not_busy nofun rfl rfl State.resetUnit_acceptedCount
  | wait => exact h
  | accept hr hp ho => exact h.accept hp ho
  | execute hp => exact h.of_not_busy nofun rfl rfl (State.complete_acceptedCount hp)
  | deliver hr hp => exact h.of_not_busy nofun rfl rfl (State.deliver_acceptedCount hp)

/-- Settles O19: the event keeps the invariant, and so does the host's part after it. -/
theorem stepKeepsRunInvariant : Obligations.StepKeepsRunInvariant := by
  intro s t h hstep
  obtain ⟨u, hu, rfl⟩ := blockEvent_of_step hstep
  exact (hu.runInv h).advance

/-! ## No refusal under the invariant -/

theorem advanceNext_ne_refused {a : Host.Outcome State Fault Refusal} {r : Refusal} (h : a ≠ .refused r) :
    advanceNext a ≠ .refused r := by
  cases a with
  | next => nofun
  | fault => nofun
  | refused => exact h

/-- ACCEPT refuses reserved words only. -/
theorem RunInv.idleStep_ne_refused (h : RunInv s) (r : Refusal) : s.idleStep ≠ .refused r := by
  obtain ⟨-, hoffer, -⟩ := h
  cases ho : s.cmdPort with
  | none =>
    rw [State.idleStep_of_none ho]
    nofun
  | some o =>
    obtain ⟨i, hd⟩ := (exists_decode_eq_ok_iff_legalWord o.cw).mpr (hoffer o ho)
    rw [State.idleStep_of_ok ho hd]
    nofun

/-- Settles O20: in IDLE and in BUSY the word is legal, so it decodes; the other steps never refuse. -/
theorem wellFormedProgramNeverRefused : Obligations.WellFormedProgramNeverRefused := by
  intro s h r
  cases hr : s.wires.rst with
  | true =>
    rw [step_of_rst hr]
    nofun
  | false =>
    cases hp : s.phase with
    | idle =>
      rw [step_of_idle hr hp]
      exact advanceNext_ne_refused (h.idleStep_ne_refused r)
    | busy =>
      obtain ⟨hbusy, -⟩ := h
      obtain ⟨i, hd⟩ := (exists_decode_eq_ok_iff_legalWord s.cwQ).mpr (hbusy hp)
      rw [step_of_busy hr hp hd]
      exact advanceNext_ne_refused (exec_ne_refused i s r)
    | resp =>
      rw [step_of_resp hr hp]
      nofun

/-! ## One transaction -/

theorem run_succ_of_step {k : Nat} (h : step s = .next t) :
    Host.Core.run core (k + 1) s = Host.Core.run core k t := by
  have hcore : core.step s = .next t := h
  simp only [Host.Core.run, hcore]

/-- A host whose schedule has ended drives its wires on as they are. -/
theorem State.advance_wires_of_nil (h : s.schedule = []) : s.advance.wires = s.wires := by
  rw [State.advance, State.setWires_of_nil s h, State.present_wires]

theorem State.advance_schedule_of_nil (h : s.schedule = []) : s.advance.schedule = [] := by
  rw [State.advance, State.setWires_of_nil s h, State.present_schedule, h]

/-! The three events as steps. -/

theorem step_of_accept (hr : s.wires.rst = false) (hp : s.phase = .idle) (ho : s.cmdPort = some o)
    (hd : decode o.cw = .ok i) : step s = .next (s.accept o).advance := by
  rw [step_of_idle hr hp, State.idleStep_of_ok ho hd, advanceNext_next]

theorem step_of_execute (hr : s.wires.rst = false) (hp : s.phase = .busy) (hd : decode s.cwQ = .ok i)
    (he : exec i s = .next t) : step s = .next t.advance := by
  rw [step_of_busy hr hp hd, he, advanceNext_next]

theorem step_of_deliver (hr : s.wires.rst = false) (hp : s.phase = .resp) (hy : s.wires.rspReady = true) :
    step s = .next s.deliver.advance := by
  rw [step_of_resp hr hp, State.respStep_of_ready hy]

/-- EXECUTE and DELIVER of the command in flight, to a host that goes on as it is and takes responses. -/
theorem run_two_of_busy (hr : s.wires.rst = false) (hy : s.wires.rspReady = true) (hsched : s.schedule = [])
    (hp : s.phase = .busy) (hd : decode s.cwQ = .ok i) (he : exec i s = .next u) :
    ∃ t, Host.Core.run core 2 s = .next t ∧ t.phase = .idle ∧ t.waitingCount = s.waitingCount ∧
      t.responses = s.responses ++ [some u.rQ] := by
  have hexecute := step_of_execute hr hp hd he
  obtain ⟨g, r, rfl⟩ := exec_eq_next he
  have hwires := State.advance_wires_of_nil (s := (s.setDivRegs g).complete r) hsched
  have hdeliver := step_of_deliver ((congrArg Wires.rst hwires).trans hr) (State.advance_phase _)
    ((congrArg Wires.rspReady hwires).trans hy)
  have hrun : Host.Core.run core 2 s = .next ((s.setDivRegs g).complete r).advance.deliver.advance :=
    (run_succ_of_step hexecute).trans (run_succ_of_step hdeliver)
  exact ⟨_, hrun, by simp, by simp, by simp⟩

/-- Settles O23: ACCEPT samples the offer, and the instruction's response is that of the same operands in the first
state. -/
theorem transactionCompletesInThreeSteps : Obligations.TransactionCompletesInThreeSteps := by
  intro s cw a b i hp hr hy hsched ho hd hpre
  have haccept := step_of_accept hr hp ho hd
  have hwait := State.accept_waitingCount ho
  have hwires := State.advance_wires_of_nil (s := s.accept ⟨cw, a, b⟩) hsched
  have hsched' := State.advance_schedule_of_nil (s := s.accept ⟨cw, a, b⟩) hsched
  obtain ⟨u, hu⟩ := exec_of_precondition (s := { s with aQ := a, bQ := b }) hpre
  obtain ⟨v, hv, hrQ⟩ :=
    exec_response_congr (t := (s.accept ⟨cw, a, b⟩).advance) (by simp) (by simp) (by simp) hu
  obtain ⟨t, hrun, hidle, hcount, hresp⟩ := run_two_of_busy ((congrArg Wires.rst hwires).trans hr)
    ((congrArg Wires.rspReady hwires).trans hy) hsched' (by simp) (by simpa using hd) hv
  refine ⟨t, u, (run_succ_of_step haccept).trans hrun, hu, hidle, ?_, ?_⟩
  · rw [hcount, State.advance_waitingCount, hwait]
  · rw [hresp, hrQ, State.advance_responses, State.accept_responses]

end Sys2Proof.Machine
end

section
/-!
Proofs of the statements on the division engine's loops and registers (46_divide.md sections 2 and 5, 10_state.md R31).
A loop that has ended by its own test stays as it is however many passes are left, so the model's counts cut nothing
short; and the number of passes of the subtract loop is that of its invariant.
-/

namespace Sys2Proof.Machine

variable {a b den cur : Value} {g : DivRegs} {k m n : Nat}

/-- Settles O50: both early exits and the engine give quotient and remainder. -/
theorem divisionEngineIsExact : Obligations.DivisionEngineIsExact := fun _ _ => divModU_U

/-! ## Alignment -/

/-- Once the loop has ended by its own test, further passes change nothing. -/
theorem alignLoop_add (h : alignAgain a (alignLoop a n den cur).1 = false) (j : Nat) :
    alignLoop a (n + j) den cur = alignLoop a n den cur := by
  induction n generalizing den cur with
  | zero =>
    cases j with
    | zero => rfl
    | succ j => exact if_neg (Bool.eq_false_iff.mp h)
  | succ n ih =>
    rw [Nat.add_right_comm]
    rw [alignLoop] at h
    rw [alignLoop, alignLoop]
    split at h
    case isTrue hagain => rw [if_pos hagain, if_pos hagain, ih h]
    case isFalse hagain => rw [if_neg hagain, if_neg hagain]

/-- The worst case of R179: a dividend with bit 127 set, by `ONE`. -/
theorem alignLoop_one_cur_U (ha : 2 ^ 127 ≤ a.U) : (alignLoop a 127 Value.one Value.one).2.U = 2 ^ 127 := by
  have hone : Value.one ≠ Value.zero := by decide
  obtain ⟨m, h, hagain⟩ := alignLoop_spec (a := a) (n := 127) hone shiftedUp_zero (by omega)
  have hden : (alignLoop a 127 Value.one Value.one).1.U = 2 ^ m := by rw [h.den_U, Value.one_U, one_mul]
  have hle : 2 ^ m ≤ 2 ^ 127 := Nat.pow_le_pow_right (by decide) h.le_127
  have hlt : 2 ^ 127 < 2 ^ (m + 1) :=
    calc 2 ^ 127 ≤ a.U := ha
      _ < 2 * 2 ^ m := hden ▸ lt_two_mul_of_not_alignAgain hagain (hden.trans_le (hle.trans ha))
      _ = 2 ^ (m + 1) := (pow_succ' 2 m).symm
  have hge : 127 < m + 1 := (Nat.pow_lt_pow_iff_right (by decide)).mp hlt
  rw [h.cur_U, le_antisymm h.le_127 (Nat.lt_succ_iff.mp hge)]

/-! ## The subtract loop -/

theorem subtractLoop_of_cur_eq_zero (h : g.cur = Value.zero) : subtractLoop k g = g := by
  cases k with
  | zero => rfl
  | succ k => exact if_pos h

/-- After `k` of its passes the loop has `n` to come. -/
theorem SubtractInv.after_passes (h : SubtractInv a b (n + k) g) : SubtractInv a b n (subtractLoop k g) := by
  induction k generalizing g with
  | zero => exact h
  | succ k ih =>
    rw [subtractLoop, if_neg (mt h.cur_eq_zero_iff.mp (by omega))]
    exact ih h.pass

theorem subtractLoop_add : subtractLoop (m + n) g = subtractLoop n (subtractLoop m g) := by
  induction m generalizing g with
  | zero => rw [Nat.zero_add, subtractLoop]
  | succ m ih =>
    rw [Nat.add_right_comm, subtractLoop, subtractLoop]
    split
    case isTrue h => rw [subtractLoop_of_cur_eq_zero h]
    case isFalse => exact ih

/-- The loop ends by its own test after the passes of its invariant, so a greater count changes nothing. -/
theorem SubtractInv.subtractLoop_eq (h : SubtractInv a b n g) (hnk : n ≤ k) :
    subtractLoop k g = subtractLoop n g := by
  obtain ⟨j, rfl⟩ := Nat.exists_eq_add_of_le hnk
  rw [subtractLoop_add]
  exact subtractLoop_of_cur_eq_zero ((subtractLoop_subtractInv h le_rfl).cur_eq_zero_iff.mpr rfl)

/-- At the head of the loop the tracker is `2^k`, and `k + 1` passes are to come (R179). -/
theorem afterAlignment_passes (hb : b ≠ Value.zero) (hba : b.U ≤ a.U) :
    ∃ k ≤ 127, (afterAlignment a b).cur.U = 2 ^ k ∧ SubtractInv a b (k + 1) (afterAlignment a b) := by
  obtain ⟨n, hn, h⟩ := afterAlignment_subtractInv hb hba
  obtain ⟨m, hshift, -⟩ := afterAlignment_spec hb hba
  have hpos : (afterAlignment a b).cur ≠ Value.zero := by
    rw [Ne, ← Value.U_eq_zero_iff, hshift.cur_U]
    positivity
  obtain ⟨k, rfl⟩ := Nat.exists_eq_succ_of_ne_zero (mt h.cur_eq_zero_iff.mpr hpos)
  exact ⟨k, by omega, by rw [h.cur_U, two_pow_succ_div_two], h⟩

/-! ## The early exits (R171) -/

theorem divModU_of_lt (h : a.U < b.U) : divModU a b = (Value.zero, a) := if_pos (gtu128_iff.mpr h)

theorem divRegsAfter_of_lt (h : a.U < b.U) : divRegsAfter g a b = g := if_pos (gtu128_iff.mpr h)

theorem not_gtu128_self : ¬gtu128 a a = true := mt gtu128_iff.mp (lt_irrefl _)

theorem divModU_self : divModU a a = (Value.one, Value.zero) := by
  rw [divModU, if_neg not_gtu128_self, if_pos (eq128_iff.mpr rfl)]

theorem divRegsAfter_self : divRegsAfter g a a = g := by
  rw [divRegsAfter, if_neg not_gtu128_self, if_pos (eq128_iff.mpr rfl)]

/-- Settles O58: alignment by its own test, the passes by the subtract loop's invariant, the exits by their tests. -/
theorem divisionLoopsAreBounded : Obligations.DivisionLoopsAreBounded := by
  refine ⟨fun a b hb hba => ?loops, alignLoop_one_cur_U (by decide), alignLoop_one_cur_U (by decide),
    fun a b _ h => ⟨divModU_of_lt h, fun _ => divRegsAfter_of_lt h⟩,
    fun a _ => ⟨divModU_self, fun _ => divRegsAfter_self⟩⟩
  obtain ⟨-, -, hagain⟩ := alignLoop_spec (a := a) (n := 127) hb shiftedUp_zero (by omega)
  obtain ⟨k, hk, hcur, h⟩ := afterAlignment_passes hb hba
  refine ⟨alignLoop_add hagain, hagain, k, hk, hcur, fun j hj => ?running, ?ended,
    h.subtractLoop_eq (by omega)⟩
  case running =>
    have hpasses : SubtractInv a b (k + 1 - j + j) (afterAlignment a b) := by
      rwa [Nat.sub_add_cancel (by omega)]
    exact mt hpasses.after_passes.cur_eq_zero_iff.mp (by omega)
  case ended => exact (subtractLoop_subtractInv h le_rfl).cur_eq_zero_iff.mpr rfl

/-! ## The working registers -/

theorem divRegsAfter_of_gt (h : b.U < a.U) : divRegsAfter g a b = divEngine a b := by
  have hgt : ¬gtu128 b a = true := mt gtu128_iff.mp h.not_gt
  have heq : ¬eq128 b a = true := fun he => h.ne (congrArg Value.U (eq128_iff.mp he))
  rw [divRegsAfter, if_neg hgt, if_neg heq]

/-- The engine leaves an empty tracker. -/
theorem divEngine_cur (hb : b ≠ Value.zero) (hba : b.U ≤ a.U) : (divEngine a b).cur = Value.zero := by
  obtain ⟨n, hn, h⟩ := afterAlignment_subtractInv hb hba
  exact (subtractLoop_subtractInv h hn).cur_eq_zero_iff.mpr rfl

/-- Settles O60: DIVU's registers are the engine's; no response reads them, since none reads more than the operands
and the parameter (O16). -/
theorem workingRegistersHoldEngineResult : Obligations.WorkingRegistersHoldEngineResult := by
  refine ⟨fun s hb hlt => ?engine, fun i s t g => exec_response_congr rfl rfl rfl⟩
  obtain ⟨hquo, hrem⟩ := divEngine_U hb hlt.le
  refine ⟨_, exec_divu.trans (State.completeDivision_of_ne _ _ hb), ?_⟩
  rw [State.complete_divRegs, State.setDivRegs_divRegs, divRegsAfter_of_gt hlt]
  exact ⟨hquo, hrem, divEngine_cur hb hlt.le⟩

end Sys2Proof.Machine
end
